-- ==== Sys2Proof/Word.lean ====
section
/-! DEFINITION. The word, the byte and the register number (00_scope.md R6, R7, R20). -/

namespace Sys2Proof

/-- A register value, an address, a pc value or an instruction word: 32 bits, bit 0 the least
significant (R6, R7). Its `u()` is `BitVec.toNat`, its `s()` is `BitVec.toInt` (two's complement). -/
abbrev Word := BitVec 32

/-- The unit an address names: eight bits (20_memory.md R50). -/
abbrev Byte := BitVec 8

/-- The number in an rd, rs1 or rs2 field: five bits (30_encoding.md R83). -/
abbrev RegNum := BitVec 5

end Sys2Proof
end

