-- ==== Sys2Proof/Config.lean ====
section
/-! DEFINITION. The parameters the spec leaves OPEN, their defaults, and the values it leaves free
(00_scope.md R5; 92_eei_decisions.md section 7; 93_implementation_defined.md section 1). -/

namespace Sys2Proof.Config

/-- A range of byte addresses, both ends included. A finite list of ranges names any set of aligned
words, which is what MEM_REGIONS is (20_memory.md R57). -/
structure Region where
  first : Nat
  last : Nat
deriving DecidableEq, Repr

/-- MEM_ORG (20_memory.md R64): one memory, or a program memory beside the data memory. -/
inductive MemOrg where
  | unified
  | split
deriving DecidableEq, Repr

/-- END_OF_RUN (70_reset_and_hazards.md R306): what ends a run. -/
inductive EndOfRun where
  /-- (a) only a fault ends the run. -/
  | onFault
  /-- (b) a step that changes nothing: the self-loop. -/
  | selfLoop
  /-- (c) pc equals this address, before the word there is fetched. -/
  | stopAt (a : Word)
deriving DecidableEq, Repr

/-- The parameters the host fixes before the first step (70_reset_and_hazards.md R310). -/
structure Params where
  /-- RESET_PC: the address of the first instruction. -/
  resetPc : Word
  /-- MEM_REGIONS: which aligned words hold memory. -/
  memRegions : List Region
  /-- MEM_ORG. -/
  memOrg : MemOrg
  /-- END_OF_RUN. -/
  endOfRun : EndOfRun
  /-- LDST_FILL: bits 12:5 of a register-form LD or ST an assembler writes. -/
  ldstFill : BitVec 8
deriving DecidableEq, Repr

/-- RESET_PC's default (92_eei_decisions.md section 7). DESIGN CHOICE, log 5: State.reset takes the
default of a parameter the spec leaves OPEN; unsafe for a claim about State.reset only. -/
def defaultResetPc : Word := 0x00000000#32

/-- LDST_FILL's default (30_encoding.md R86). DESIGN CHOICE, log 9: safe, the decoder ignores it. -/
def defaultLdstFill : BitVec 8 := 0x0A#8

/-- The parameters of State.reset: the spec's defaults (92_eei_decisions.md section 7), and where it
gives none, every aligned word for MEM_REGIONS (R57 allows it; DESIGN CHOICE, log 6, unsafe) and the
last word's address as the stop address (DESIGN CHOICE, log 8, safe: no step reads it). -/
def defaultParams : Params :=
  { resetPc := defaultResetPc
    memRegions := [⟨0x00000000, 0xFFFFFFFF⟩]
    memOrg := .unified
    endOfRun := .stopAt 0xFFFFFFFC#32
    ldstFill := defaultLdstFill }

/-- FREE VALUE, log 3: what a byte of the memory (of the data memory under MEM_ORG = split) reads as
before anyone loads or stores it, by address: any value, the same at every read (R36, R54). Safe for
claims about one run, unsafe for a claim that compares two boots. -/
opaque unloadedByte : Nat → Byte

/-- FREE VALUE, log 3: the same for the program memory of MEM_ORG = split; safe and unsafe alike. -/
opaque unloadedProgByte : Nat → Byte

/-- FREE VALUE, log 14: the n-th draw32() of a run (42_mul_div.md R167, R169). Safe for claims
about one run, unsafe for a claim that compares two. -/
opaque drawWord : Nat → Word

/-- FREE VALUE, log 14: flag n of the n-th draw (R169: "all four flags are draws"); safe and unsafe as
`drawWord` is. -/
opaque drawN : Nat → Bool

/-- FREE VALUE, log 14: flag z of the n-th draw (R169); safe and unsafe as `drawWord` is. -/
opaque drawZ : Nat → Bool

/-- FREE VALUE, log 14: flag v of the n-th draw (R169); safe and unsafe as `drawWord` is. -/
opaque drawV : Nat → Bool

/-- FREE VALUE, log 14: flag c of the n-th draw (R169); safe and unsafe as `drawWord` is. -/
opaque drawC : Nat → Bool

end Sys2Proof.Config
end

