-- ==== Sys2Proof/Syntax.lean ====
section
/-! DEFINITION. The instructions: one constructor per row of spec/opcode_table.json (00_scope.md R2). -/

namespace Sys2Proof

/-- Operand 2 of a format 3 instruction (00_scope.md R9; 30_encoding.md R85): a register when i = 0,
the 13-bit constant when i = 1. -/
inductive Operand2 where
  | reg (rs2 : RegNum)
  | imm (simm13 : BitVec 13)
deriving DecidableEq, Repr

/-- The 53 instructions. `rd`, `rs1` are register numbers, `op2` is operand 2, `disp22`, `disp30` and
`imm22` are the fields as they stand in the word: a displacement counts instructions (30_encoding.md
R89, R90). -/
inductive Instr where
  /-- ADD (R141). -/
  | add (rd rs1 : RegNum) (op2 : Operand2)
  /-- AND (R121). -/
  | and (rd rs1 : RegNum) (op2 : Operand2)
  /-- OR (R122). -/
  | or (rd rs1 : RegNum) (op2 : Operand2)
  /-- XOR (R123). -/
  | xor (rd rs1 : RegNum) (op2 : Operand2)
  /-- SUB (R142). -/
  | sub (rd rs1 : RegNum) (op2 : Operand2)
  /-- ANDN (R124). -/
  | andn (rd rs1 : RegNum) (op2 : Operand2)
  /-- ORN (R125). -/
  | orn (rd rs1 : RegNum) (op2 : Operand2)
  /-- XNOR (R126). -/
  | xnor (rd rs1 : RegNum) (op2 : Operand2)
  /-- ADDX (R143). -/
  | addx (rd rs1 : RegNum) (op2 : Operand2)
  /-- UMUL (R161). -/
  | umul (rd rs1 : RegNum) (op2 : Operand2)
  /-- SMUL (R162). -/
  | smul (rd rs1 : RegNum) (op2 : Operand2)
  /-- SUBX (R144). -/
  | subx (rd rs1 : RegNum) (op2 : Operand2)
  /-- UDIV (R166). -/
  | udiv (rd rs1 : RegNum) (op2 : Operand2)
  /-- SDIV (R167). -/
  | sdiv (rd rs1 : RegNum) (op2 : Operand2)
  /-- ADDcc (R145). -/
  | addcc (rd rs1 : RegNum) (op2 : Operand2)
  /-- ANDcc (R127). -/
  | andcc (rd rs1 : RegNum) (op2 : Operand2)
  /-- ORcc (R128). -/
  | orcc (rd rs1 : RegNum) (op2 : Operand2)
  /-- XORcc (R129). -/
  | xorcc (rd rs1 : RegNum) (op2 : Operand2)
  /-- SUBcc (R146). -/
  | subcc (rd rs1 : RegNum) (op2 : Operand2)
  /-- ANDNcc (R130). -/
  | andncc (rd rs1 : RegNum) (op2 : Operand2)
  /-- ORNcc (R131). -/
  | orncc (rd rs1 : RegNum) (op2 : Operand2)
  /-- XNORcc (R132). -/
  | xnorcc (rd rs1 : RegNum) (op2 : Operand2)
  /-- ADDXcc (R147). -/
  | addxcc (rd rs1 : RegNum) (op2 : Operand2)
  /-- UMULcc (R163). -/
  | umulcc (rd rs1 : RegNum) (op2 : Operand2)
  /-- SMULcc (R164). -/
  | smulcc (rd rs1 : RegNum) (op2 : Operand2)
  /-- SUBXcc (R148). -/
  | subxcc (rd rs1 : RegNum) (op2 : Operand2)
  /-- UDIVcc (R168). -/
  | udivcc (rd rs1 : RegNum) (op2 : Operand2)
  /-- SDIVcc (R169). -/
  | sdivcc (rd rs1 : RegNum) (op2 : Operand2)
  /-- SLL (R181). -/
  | sll (rd rs1 : RegNum) (op2 : Operand2)
  /-- SRL (R182). -/
  | srl (rd rs1 : RegNum) (op2 : Operand2)
  /-- SRA (R183). -/
  | sra (rd rs1 : RegNum) (op2 : Operand2)
  /-- LD (R191). -/
  | ld (rd rs1 : RegNum) (op2 : Operand2)
  /-- ST (R192). -/
  | st (rd rs1 : RegNum) (op2 : Operand2)
  /-- BN (R202). -/
  | bn (disp22 : BitVec 22)
  /-- BE (R203). -/
  | be (disp22 : BitVec 22)
  /-- BLE (R204). -/
  | ble (disp22 : BitVec 22)
  /-- BL (R205). -/
  | bl (disp22 : BitVec 22)
  /-- BLEU (R206). -/
  | bleu (disp22 : BitVec 22)
  /-- BCS (R207). -/
  | bcs (disp22 : BitVec 22)
  /-- BNEG (R208). -/
  | bneg (disp22 : BitVec 22)
  /-- BVS (R209). -/
  | bvs (disp22 : BitVec 22)
  /-- BA (R210). -/
  | ba (disp22 : BitVec 22)
  /-- BNE (R211). -/
  | bne (disp22 : BitVec 22)
  /-- BG (R212). -/
  | bg (disp22 : BitVec 22)
  /-- BGE (R213). -/
  | bge (disp22 : BitVec 22)
  /-- BGU (R214). -/
  | bgu (disp22 : BitVec 22)
  /-- BCC (R215). -/
  | bcc (disp22 : BitVec 22)
  /-- BPOS (R216). -/
  | bpos (disp22 : BitVec 22)
  /-- BVC (R217). -/
  | bvc (disp22 : BitVec 22)
  /-- CALL (R230). -/
  | call (disp30 : BitVec 30)
  /-- RETL (R232). -/
  | retl
  /-- JMPL (R231). -/
  | jmpl (rd rs1 : RegNum) (op2 : Operand2)
  /-- SETHI (R240). -/
  | sethi (rd : RegNum) (imm22 : BitVec 22)
deriving DecidableEq, Repr

end Sys2Proof
end

