-- ==== Sys2Proof/WellFormed.lean ====
section
/-! DEFINITION. Which instruction terms are instructions of the machine.

Every field has its own width, so the one check left is that the word 0x81C3E008 has one name: it is
RETL (46_call_jump.md R232; opcode_table.json: "a first-match decoder tests it before JMPL"), and the
JMPL term with the same fields stands for no word of its own (log 15, safe: both have one meaning). -/

namespace Sys2Proof

/-- The fields of RETL's word read as a JMPL: rd = 0, rs1 = 15, i = 1, simm13 = 8 (R232). -/
def isRetlFields (rd rs1 : RegNum) (op2 : Operand2) : Bool :=
  rd = 0#5 && rs1 = 15#5 && op2 = .imm 8#13

/-- The check: a JMPL with RETL's fields is not a term of its own. -/
def Instr.wf : Instr → Bool
  | .jmpl rd rs1 op2 => !isRetlFields rd rs1 op2
  | _ => true

end Sys2Proof
end

