-- ==== Sys2Proof/Decode.lean ====
section
/-! DEFINITION. From bytes and words to instructions and back (30_encoding.md R80 to R99; 20_memory.md
R51 for the byte order). The decoder is total and says by name why it rejects a word. -/

namespace Sys2Proof

/-! ## Byte order (R51) -/

/-- The word whose bytes, from the lowest address up, are b0, b1, b2, b3: big-endian (R51). -/
def wordOfBytes (b0 b1 b2 b3 : Byte) : Word := b0 ++ b1 ++ b2 ++ b3

/-- Byte k (0 at the lowest address) of a stored word (R51, R55). -/
def byteOfWord (w : Word) (k : Nat) : Byte := w.extractLsb' (24 - 8 * k) 8

/-- The four bytes of a word in address order (R51). -/
def bytesOfWord (w : Word) : List Byte := [byteOfWord w 0, byteOfWord w 1, byteOfWord w 2, byteOfWord w 3]

/-! ## Fields of the word (R81 to R84) -/

/-- `insn[31:30]`, which selects the format (R80). -/
def opField (w : Word) : BitVec 2 := w.extractLsb' 30 2
/-- `insn[29:25]` (R83, R84). -/
def rdField (w : Word) : RegNum := w.extractLsb' 25 5
/-- `insn[24:19]` (R82). -/
def op3Field (w : Word) : BitVec 6 := w.extractLsb' 19 6
/-- `insn[18:14]` (R83). -/
def rs1Field (w : Word) : RegNum := w.extractLsb' 14 5
/-- `insn[13]` (R85). -/
def iField (w : Word) : Bool := w.getLsbD 13
/-- `insn[4:0]` (R83). -/
def rs2Field (w : Word) : RegNum := w.extractLsb' 0 5
/-- `insn[12:0]` (R88). -/
def simm13Field (w : Word) : BitVec 13 := w.extractLsb' 0 13
/-- `insn[24:22]` (R84). -/
def op2Field (w : Word) : BitVec 3 := w.extractLsb' 22 3
/-- `insn[29]`, the annul bit of SPARC V8, which must be 0 here (R87). -/
def annulField (w : Word) : Bool := w.getLsbD 29
/-- `insn[28:25]` (R84). -/
def condField (w : Word) : BitVec 4 := w.extractLsb' 25 4
/-- `insn[21:0]`: disp22 or imm22 (R84). -/
def low22Field (w : Word) : BitVec 22 := w.extractLsb' 0 22
/-- `insn[29:0]` (R81). -/
def disp30Field (w : Word) : BitVec 30 := w.extractLsb' 0 30

/-- Operand 2 as the word spells it (R85). Bits 12:5 of a register form are ignored (R86, log 9). -/
def operand2Field (w : Word) : Operand2 :=
  if iField w then .imm (simm13Field w) else .reg (rs2Field w)

/-! ## The opcode map (R92 to R96) -/

/-- Format 3 with op = 0b10, in the order of R92's table: op3 and the instruction it selects. -/
def arithOpcodes : List (BitVec 6 × (RegNum → RegNum → Operand2 → Instr)) :=
  [(0x00#6, .add), (0x01#6, .and), (0x02#6, .or), (0x03#6, .xor),
   (0x04#6, .sub), (0x05#6, .andn), (0x06#6, .orn), (0x07#6, .xnor),
   (0x08#6, .addx), (0x0A#6, .umul), (0x0B#6, .smul), (0x0C#6, .subx),
   (0x0E#6, .udiv), (0x0F#6, .sdiv),
   (0x10#6, .addcc), (0x11#6, .andcc), (0x12#6, .orcc), (0x13#6, .xorcc),
   (0x14#6, .subcc), (0x15#6, .andncc), (0x16#6, .orncc), (0x17#6, .xnorcc),
   (0x18#6, .addxcc), (0x1A#6, .umulcc), (0x1B#6, .smulcc), (0x1C#6, .subxcc),
   (0x1E#6, .udivcc), (0x1F#6, .sdivcc),
   (0x25#6, .sll), (0x26#6, .srl), (0x27#6, .sra), (0x38#6, .jmpl)]

/-- Format 3 with op = 0b11 (R93). -/
def memOpcodes : List (BitVec 6 × (RegNum → RegNum → Operand2 → Instr)) :=
  [(0x00#6, .ld), (0x04#6, .st)]

/-- The branch a cond value names (R94's table; BLE and BGU as 90_conflicts.md C3, C4 correct them). -/
def branchOfCond (cond : BitVec 4) : BitVec 22 → Instr :=
  match cond.toNat with
  | 0 => .bn
  | 1 => .be
  | 2 => .ble
  | 3 => .bl
  | 4 => .bleu
  | 5 => .bcs
  | 6 => .bneg
  | 7 => .bvs
  | 8 => .ba
  | 9 => .bne
  | 10 => .bg
  | 11 => .bge
  | 12 => .bgu
  | 13 => .bcc
  | 14 => .bpos
  | _ => .bvc

/-- RETL's one word (R97; 46_call_jump.md R232; 90_conflicts.md C2). -/
def retlWord : Word := 0x81C3E008#32

/-! ## The decoder (R99) -/

/-- Why a decoder rejects what it is given. -/
inductive Rejection where
  /-- Fewer than four bytes: not a whole word (R80). -/
  | truncated
  /-- No row of the opcode map matches the word (R95). -/
  | unassigned (insn : Word)
  /-- A branch word with bit 29 = 1 (R87). -/
  | annulledBranch (insn : Word)
deriving DecidableEq, Repr

/-- What a decoder answers. -/
inductive Decoded where
  | instr (i : Instr)
  | illegal (r : Rejection)
deriving DecidableEq, Repr

/-- Format 2 (R84, R94): SETHI and the branches. -/
def decodeFormat2 (w : Word) : Decoded :=
  if op2Field w = 0b100#3 then .instr (.sethi (rdField w) (low22Field w))
  else if op2Field w = 0b010#3 then
    if annulField w then .illegal (.annulledBranch w)
    else .instr (branchOfCond (condField w) (low22Field w))
  else .illegal (.unassigned w)

/-- Format 3 (R82, R92, R93) by one of the two op3 tables. -/
def decodeFormat3 (table : List (BitVec 6 × (RegNum → RegNum → Operand2 → Instr))) (w : Word) : Decoded :=
  match table.lookup (op3Field w) with
  | some f => .instr (f (rdField w) (rs1Field w) (operand2Field w))
  | none => .illegal (.unassigned w)

/-- Decoding is a total function from 32-bit words (R99). RETL's word stands before JMPL's row. -/
def decode (w : Word) : Decoded :=
  if w = retlWord then .instr .retl
  else if opField w = 0b01#2 then .instr (.call (disp30Field w))
  else if opField w = 0b00#2 then decodeFormat2 w
  else if opField w = 0b10#2 then decodeFormat3 arithOpcodes w
  else decodeFormat3 memOpcodes w

/-- The decoder on bytes in address order: the first instruction, and the bytes after it (R51, R80). -/
def decodeBytes : List Byte → Decoded × List Byte
  | b0 :: b1 :: b2 :: b3 :: rest => (decode (wordOfBytes b0 b1 b2 b3), rest)
  | _ => (.illegal .truncated, [])

/-- The instruction the decoder reads from an opcode-table word of `nbits` bits: the word is laid out
in the hardware's byte order and its bytes are given to the decoder. -/
def decodeTableWord (nbits w : Nat) : Option Instr :=
  match (decodeBytes (bytesOfWord (BitVec.ofNat 32 (w % 2 ^ nbits)))).1 with
  | .instr i => some i
  | .illegal _ => none

/-! ## The encoder (R81 to R84, R92 to R96) -/

/-- The low fourteen bits of a format 3 word: i, then rs2 under a fill, or simm13 (R82). -/
def encodeOperand2 (fill : BitVec 8) : Operand2 → BitVec 14
  | .reg rs2 => 0#1 ++ fill ++ rs2
  | .imm simm13 => 1#1 ++ simm13

/-- A format 3 word (R82). -/
def format3 (op : BitVec 2) (op3 : BitVec 6) (fill : BitVec 8) (rd rs1 : RegNum) (o : Operand2) : Word :=
  op ++ rd ++ op3 ++ rs1 ++ encodeOperand2 fill o

/-- A format 3 word with op = 0b10; an assembler writes zeros in bits 12:5 (R86, R92). -/
def arithWord (op3 : BitVec 6) (rd rs1 : RegNum) (o : Operand2) : Word := format3 0b10#2 op3 0#8 rd rs1 o

/-- A branch word: op = 0b00, bit 29 = 0, cond, op2 = 0b010, disp22 (R84). -/
def branchWord (cond : BitVec 4) (disp22 : BitVec 22) : Word := 0b000#3 ++ cond ++ 0b010#3 ++ disp22

/-- The word of an instruction, with `fill` in bits 12:5 of a register-form LD or ST (R86). -/
def encodeWith (fill : BitVec 8) : Instr → Word
  | .add rd rs1 o => arithWord 0x00#6 rd rs1 o
  | .and rd rs1 o => arithWord 0x01#6 rd rs1 o
  | .or rd rs1 o => arithWord 0x02#6 rd rs1 o
  | .xor rd rs1 o => arithWord 0x03#6 rd rs1 o
  | .sub rd rs1 o => arithWord 0x04#6 rd rs1 o
  | .andn rd rs1 o => arithWord 0x05#6 rd rs1 o
  | .orn rd rs1 o => arithWord 0x06#6 rd rs1 o
  | .xnor rd rs1 o => arithWord 0x07#6 rd rs1 o
  | .addx rd rs1 o => arithWord 0x08#6 rd rs1 o
  | .umul rd rs1 o => arithWord 0x0A#6 rd rs1 o
  | .smul rd rs1 o => arithWord 0x0B#6 rd rs1 o
  | .subx rd rs1 o => arithWord 0x0C#6 rd rs1 o
  | .udiv rd rs1 o => arithWord 0x0E#6 rd rs1 o
  | .sdiv rd rs1 o => arithWord 0x0F#6 rd rs1 o
  | .addcc rd rs1 o => arithWord 0x10#6 rd rs1 o
  | .andcc rd rs1 o => arithWord 0x11#6 rd rs1 o
  | .orcc rd rs1 o => arithWord 0x12#6 rd rs1 o
  | .xorcc rd rs1 o => arithWord 0x13#6 rd rs1 o
  | .subcc rd rs1 o => arithWord 0x14#6 rd rs1 o
  | .andncc rd rs1 o => arithWord 0x15#6 rd rs1 o
  | .orncc rd rs1 o => arithWord 0x16#6 rd rs1 o
  | .xnorcc rd rs1 o => arithWord 0x17#6 rd rs1 o
  | .addxcc rd rs1 o => arithWord 0x18#6 rd rs1 o
  | .umulcc rd rs1 o => arithWord 0x1A#6 rd rs1 o
  | .smulcc rd rs1 o => arithWord 0x1B#6 rd rs1 o
  | .subxcc rd rs1 o => arithWord 0x1C#6 rd rs1 o
  | .udivcc rd rs1 o => arithWord 0x1E#6 rd rs1 o
  | .sdivcc rd rs1 o => arithWord 0x1F#6 rd rs1 o
  | .sll rd rs1 o => arithWord 0x25#6 rd rs1 o
  | .srl rd rs1 o => arithWord 0x26#6 rd rs1 o
  | .sra rd rs1 o => arithWord 0x27#6 rd rs1 o
  | .ld rd rs1 o => format3 0b11#2 0x00#6 fill rd rs1 o
  | .st rd rs1 o => format3 0b11#2 0x04#6 fill rd rs1 o
  | .bn d => branchWord 0b0000#4 d
  | .be d => branchWord 0b0001#4 d
  | .ble d => branchWord 0b0010#4 d
  | .bl d => branchWord 0b0011#4 d
  | .bleu d => branchWord 0b0100#4 d
  | .bcs d => branchWord 0b0101#4 d
  | .bneg d => branchWord 0b0110#4 d
  | .bvs d => branchWord 0b0111#4 d
  | .ba d => branchWord 0b1000#4 d
  | .bne d => branchWord 0b1001#4 d
  | .bg d => branchWord 0b1010#4 d
  | .bge d => branchWord 0b1011#4 d
  | .bgu d => branchWord 0b1100#4 d
  | .bcc d => branchWord 0b1101#4 d
  | .bpos d => branchWord 0b1110#4 d
  | .bvc d => branchWord 0b1111#4 d
  | .call d => 0b01#2 ++ d
  | .retl => retlWord
  | .jmpl rd rs1 o => arithWord 0x38#6 rd rs1 o
  | .sethi rd imm22 => 0b00#2 ++ rd ++ 0b100#3 ++ imm22

/-- The word an assembler writes with LDST_FILL at its default (R86). -/
def encode (i : Instr) : Word := encodeWith Config.defaultLdstFill i

/-! ## The rows of the opcode table (R92 to R96) -/

/-- One row: a word is the row's when its bits under `mask` are `pattern`. -/
structure OpcodeRow where
  mnemonic : String
  mask : Word
  pattern : Word
deriving DecidableEq, Repr

/-- Whether a word is one of a row's words. -/
def OpcodeRow.matchesWord (r : OpcodeRow) (w : Word) : Bool := w &&& r.mask = r.pattern

/-- A row of R92: mask 0xC1F80000, pattern 0x80000000 | (op3 << 19). -/
def arithRow (mnemonic : String) (op3 : BitVec 6) : OpcodeRow :=
  ⟨mnemonic, 0xC1F80000#32, 0x80000000#32 ||| (op3.setWidth 32 <<< 19)⟩

/-- A row of R94: mask 0xFFC00000, pattern (cond << 25) | 0x00800000. -/
def branchRow (mnemonic : String) (cond : BitVec 4) : OpcodeRow :=
  ⟨mnemonic, 0xFFC00000#32, (cond.setWidth 32 <<< 25) ||| 0x00800000#32⟩

/-- The rows of format 3 with op = 0b10 (R92), RETL's word apart. -/
def arithRows : List OpcodeRow :=
  [arithRow "ADD" 0x00#6, arithRow "AND" 0x01#6, arithRow "OR" 0x02#6, arithRow "XOR" 0x03#6,
   arithRow "SUB" 0x04#6, arithRow "ANDN" 0x05#6, arithRow "ORN" 0x06#6, arithRow "XNOR" 0x07#6,
   arithRow "ADDX" 0x08#6, arithRow "UMUL" 0x0A#6, arithRow "SMUL" 0x0B#6, arithRow "SUBX" 0x0C#6,
   arithRow "UDIV" 0x0E#6, arithRow "SDIV" 0x0F#6,
   arithRow "ADDcc" 0x10#6, arithRow "ANDcc" 0x11#6, arithRow "ORcc" 0x12#6, arithRow "XORcc" 0x13#6,
   arithRow "SUBcc" 0x14#6, arithRow "ANDNcc" 0x15#6, arithRow "ORNcc" 0x16#6, arithRow "XNORcc" 0x17#6,
   arithRow "ADDXcc" 0x18#6, arithRow "UMULcc" 0x1A#6, arithRow "SMULcc" 0x1B#6, arithRow "SUBXcc" 0x1C#6,
   arithRow "UDIVcc" 0x1E#6, arithRow "SDIVcc" 0x1F#6,
   arithRow "SLL" 0x25#6, arithRow "SRL" 0x26#6, arithRow "SRA" 0x27#6]

/-- The sixteen branch rows (R94). -/
def branchRows : List OpcodeRow :=
  [branchRow "BN" 0#4, branchRow "BE" 1#4, branchRow "BLE" 2#4, branchRow "BL" 3#4,
   branchRow "BLEU" 4#4, branchRow "BCS" 5#4, branchRow "BNEG" 6#4, branchRow "BVS" 7#4,
   branchRow "BA" 8#4, branchRow "BNE" 9#4, branchRow "BG" 10#4, branchRow "BGE" 11#4,
   branchRow "BGU" 12#4, branchRow "BCC" 13#4, branchRow "BPOS" 14#4, branchRow "BVC" 15#4]

/-- The 53 rows of spec/opcode_table.json, in its order. -/
def opcodeRows : List OpcodeRow :=
  arithRows ++
  [⟨"LD", 0xC1F80000#32, 0xC0000000#32⟩, ⟨"ST", 0xC1F80000#32, 0xC0200000#32⟩] ++
  branchRows ++
  [⟨"CALL", 0xC0000000#32, 0x40000000#32⟩, ⟨"RETL", 0xFFFFFFFF#32, 0x81C3E008#32⟩,
   arithRow "JMPL" 0x38#6, ⟨"SETHI", 0xC1C00000#32, 0x01000000#32⟩]

end Sys2Proof
end

