-- ==== Sys2Proof/Machine/State.lean ====
section
/-! DEFINITION. Everything the spec gives the machine (10_state.md R20 to R36), as plain data, and the
machine right after reset. -/

namespace Sys2Proof.Machine

/-- The integer condition codes (10_state.md R28): negative, zero, overflow, carry. They lie in no
larger register. -/
structure Icc where
  n : Bool
  z : Bool
  v : Bool
  c : Bool
deriving DecidableEq, Repr

/-- The spec's five faults with the value each records (60_exceptions.md R271). Raising one enters the
faulted condition, kept in `State.faulted`; `step` answers the same fault as its outcome from a state
that is already faulted, and only there (log 11). All are safe: the machine stops (R270). -/
inductive Fault where
  /-- Code 1, recorded: pc. Raised by the fetch when the word at pc is outside MEM_REGIONS. Safe. -/
  | instructionAccess (pc : Word)
  /-- Code 2, recorded: the word. Raised when the fetched word matches no row, or is a branch word
  with bit 29 = 1. Safe. -/
  | illegalInstruction (insn : Word)
  /-- Code 3, recorded: the address. Raised by LD, ST (data address), JMPL, RETL (target) and by the
  fetch (pc) when the address is not a multiple of 4. Safe. -/
  | memAddressNotAligned (addr : Word)
  /-- Code 4, recorded: the address. Raised by LD and ST when an aligned address is outside
  MEM_REGIONS. Safe. -/
  | dataAccess (addr : Word)
  /-- Code 5, recorded: pc. Raised by UDIV, SDIV, UDIVcc, SDIVcc when operand 2 is zero. Safe. -/
  | divisionByZero (pc : Word)
deriving DecidableEq, Repr

/-- Why the model gives no meaning to an instruction. -/
inductive Refusal where
  /-- The dispatch has no meaning for the instruction yet; raised by `exec` alone. Safe. No
  instruction of this model is refused. -/
  | notModelled (mnemonic : String)
deriving DecidableEq, Repr

/-- A memory: the bytes that were loaded or stored, addresses strictly rising. An address that is not
listed was never loaded nor stored and holds a free value (log 3, log 4). -/
abbrev Memory := List Host.Cell

/-- The complete state (10_state.md, opening paragraph), the host's parameters for the run (log 10)
and the model's own draw counter (log 14). -/
structure State where
  /-- x[1] to x[31]: x[k] at index k - 1. x[0] has no storage (R20, R21). -/
  regs : Vector Word 31
  /-- The address of the instruction that executes (R25). -/
  pc : Word
  /-- The condition codes (R28). -/
  icc : Icc
  /-- The memory, or the data memory under MEM_ORG = split (R33; 20_memory.md R64). -/
  mem : Memory
  /-- The program memory of MEM_ORG = split (20_memory.md R64); not read under unified. -/
  progMem : Memory
  /-- The faulted condition (R34; 60_exceptions.md R270); the pc at which it arose is `pc`. -/
  faulted : Option Fault
  /-- The parameters of the run (00_scope.md R5; 70_reset_and_hazards.md R310). -/
  params : Config.Params
  /-- How many draws the run has taken: the model's own field (log 14). -/
  draws : Nat
deriving DecidableEq, Repr

/-- The machine right after reset (10_state.md R35; 70_reset_and_hazards.md R300): pc = RESET_PC, no
faulted condition, nothing loaded. The spec gives x[1] to x[31] and icc no value; zero is the value
the model names (DESIGN CHOICE, log 1, log 2, unsafe). The draw counter starts at 0 (log 14). -/
def State.reset : State :=
  { regs := Vector.replicate 31 0x00000000#32
    pc := Config.defaultParams.resetPc
    icc := ⟨false, false, false, false⟩
    mem := []
    progMem := []
    faulted := none
    params := Config.defaultParams
    draws := 0 }

end Sys2Proof.Machine
end

