-- ==== Sys2Proof/Machine/Ops.lean ====
section
/-! DEFINITION. The named operations over registers, pc, flags, memory and the faulted condition that
the meanings share. -/

namespace Sys2Proof.Machine

/-- What one instruction answers. -/
abbrev StepOutcome := Host.Outcome State Fault Refusal

/-! ## General registers (10_state.md R20, R21, R24) -/

/-- Where x[r] stands in the register file, for r other than 0. -/
def regIndex (r : RegNum) : Fin 31 := ⟨r.toNat - 1, by have := r.isLt; omega⟩

/-- x[r]: x[0] reads as zero (R21). -/
def State.readReg (s : State) (r : RegNum) : Word :=
  if r = 0#5 then 0x00000000#32 else s.regs.get (regIndex r)

/-- x[r] <- v: a write to x[0] is discarded (R21). -/
def State.writeReg (s : State) (r : RegNum) (v : Word) : State :=
  if r = 0#5 then s else { s with regs := s.regs.set (regIndex r).val v (regIndex r).isLt }

/-! ## pc, icc, draws (10_state.md R25 to R28; 42_mul_div.md R167) -/

/-- pc <- a. -/
def State.setPc (s : State) (a : Word) : State := { s with pc := a }

/-- pc <- pc + 4, modulo 2^32 (R26, R27). -/
def State.advance (s : State) : State := s.setPc (s.pc + 4#32)

/-- icc <- f: all four flags (R28). -/
def State.setIcc (s : State) (f : Icc) : State := { s with icc := f }

/-- One draw has been taken (log 14). -/
def State.countDraw (s : State) : State := { s with draws := s.draws + 1 }

/-- draw32(): any 32-bit value (42_mul_div.md R167; free value, log 14). -/
def State.drawnWord (s : State) : Word := Config.drawWord s.draws

/-- Four drawn flags (42_mul_div.md R169; free values, log 14). -/
def State.drawnIcc (s : State) : Icc :=
  ⟨Config.drawN s.draws, Config.drawZ s.draws, Config.drawV s.draws, Config.drawC s.draws⟩

/-! ## Faults (60_exceptions.md R270, R274, R275) -/

/-- Raising a fault: nothing is written but the faulted condition, which records the fault and its
value; pc stays at the instruction (R270). There is no handler, no saved state and no return (R274,
R275), so this is the whole of taking an exception, and nothing stands beside it (log 11, log 12). -/
def raise (f : Fault) (s : State) : StepOutcome := .next { s with faulted := some f }

/-! ## Completing an instruction (10_state.md R24: all writes together at the end) -/

/-- `x[rd] <- v; pc <- pc + 4`. -/
def complete (rd : RegNum) (v : Word) (s : State) : StepOutcome := .next (s.writeReg rd v).advance

/-- `x[rd] <- v; icc <- f; pc <- pc + 4`. -/
def completeCc (rd : RegNum) (v : Word) (f : Icc) (s : State) : StepOutcome :=
  .next ((s.writeReg rd v).setIcc f).advance

/-! ## Memory as a list of bytes (10_state.md R33; log 4) -/

/-- The byte listed at an address; `none` where nobody loaded or stored one. -/
def Memory.byte? : Memory → Nat → Option Byte
  | [], _ => none
  | (k, b) :: m, a => if a = k then some b else Memory.byte? m a

/-- Lists byte b at address a, keeping the addresses strictly rising. -/
def Memory.setByte : Memory → Nat → Byte → Memory
  | [], a, b => [(a, b)]
  | (k, c) :: m, a, b =>
    if a < k then (a, b) :: (k, c) :: m
    else if a = k then (a, b) :: m
    else (k, c) :: Memory.setByte m a b

/-- The addresses of a memory rise strictly and stay above `low`. -/
def Memory.risingFrom : Nat → Memory → Bool
  | _, [] => true
  | low, (k, _) :: m => low ≤ k && k < 2 ^ 32 && Memory.risingFrom (k + 1) m

/-- The canonical form: addresses strictly rising, each of them a 32-bit address. An unlisted address
reads as `none`, which no entry holds, so no entry repeats what an unlisted address reads as. -/
def Memory.wf (m : Memory) : Bool := Memory.risingFrom 0 m

/-- MemRead of four bytes, big-endian (20_memory.md R54), over what the bytes read as. -/
def wordAt (byteAt : Nat → Byte) (a : Nat) : Word :=
  wordOfBytes (byteAt a) (byteAt (a + 1)) (byteAt (a + 2)) (byteAt (a + 3))

/-- MemWrite of four bytes: v[31:24], v[23:16], v[15:8], v[7:0] at a to a + 3 (20_memory.md R55). -/
def Memory.writeWord (m : Memory) (a : Nat) (v : Word) : Memory :=
  (((m.setByte a (byteOfWord v 0)).setByte (a + 1) (byteOfWord v 1)).setByte
    (a + 2) (byteOfWord v 2)).setByte (a + 3) (byteOfWord v 3)

/-! ## MEM_REGIONS and alignment (20_memory.md R52, R53, R57) -/

/-- `addr[1:0] = 0b00`. -/
def isAligned (a : Word) : Bool := a.extractLsb' 0 2 = 0b00#2

/-- Whether the four bytes from address a lie in one of the regions. -/
def holdsWordAt (regions : List Config.Region) (a : Nat) : Bool :=
  regions.any fun r => r.first ≤ a && a + 3 ≤ r.last

/-- Whether the word at an aligned address is in MEM_REGIONS (R57). -/
def State.inRegions (s : State) (a : Word) : Bool := holdsWordAt s.params.memRegions a.toNat

/-! ## The memories of a state (20_memory.md R54, R55, R59, R64) -/

/-- What LD reads at a byte address: the byte loaded or last stored there, else a free value (log 3). -/
def State.dataByte (s : State) (a : Nat) : Byte := (Memory.byte? s.mem a).getD (Config.unloadedByte a)

/-- What a byte of the program memory of MEM_ORG = split reads as (log 3). -/
def State.progByte (s : State) (a : Nat) : Byte :=
  (Memory.byte? s.progMem a).getD (Config.unloadedProgByte a)

/-- What the fetch reads at a byte address: the one memory, or the program memory (R64). -/
def State.fetchByte (s : State) (a : Nat) : Byte :=
  match s.params.memOrg with
  | .unified => s.dataByte a
  | .split => s.progByte a

/-- MemRead(a, 4) of LD, for an aligned address in MEM_REGIONS (R54). -/
def State.loadWord (s : State) (a : Word) : Word := wordAt s.dataByte a.toNat

/-- MemWrite(a, 4, v) of ST, for an aligned address in MEM_REGIONS (R55, R59). -/
def State.storeWord (s : State) (a v : Word) : State := { s with mem := Memory.writeWord s.mem a.toNat v }

/-- MemRead(pc, 4) of the fetch, for an aligned address in MEM_REGIONS (R53, R54, R62, R64). -/
def State.fetchWord (s : State) : Word := wordAt s.fetchByte s.pc.toNat

/-- Stores a word where the fetch reads (the host's load, 70_reset_and_hazards.md R310). -/
def State.placeWord (s : State) (a v : Word) : State :=
  match s.params.memOrg with
  | .unified => { s with mem := Memory.writeWord s.mem a.toNat v }
  | .split => { s with progMem := Memory.writeWord s.progMem a.toNat v }

end Sys2Proof.Machine
end

