-- ==== Sys2Proof/Machine/Flags.lean ====
section
/-! DEFINITION. The new condition codes icc_x (10_state.md R29) and the conditions of the branches
(45_branch.md R200). -/

namespace Sys2Proof.Machine

/-- A carry or borrow in, as a word: zext_32(c) (41_add_sub.md R143). -/
def carryWord (c : Bool) : Word := (BitVec.ofBool c).setWidth 32

/-- icc_logic (R29). -/
def iccLogic (res : Word) : Icc := ⟨res.msb, res = 0x00000000#32, false, false⟩

/-- icc_add (R29), for res = a + b + cin. The carry in shows in `res` alone. -/
def iccAdd (a b res : Word) : Icc :=
  ⟨res.msb, res = 0x00000000#32,
   (a.msb && b.msb && !res.msb) || (!a.msb && !b.msb && res.msb),
   (a.msb && b.msb) || (!res.msb && (a.msb || b.msb))⟩

/-- icc_sub (R29), for res = a - b - cin; c is the borrow. -/
def iccSub (a b res : Word) : Icc :=
  ⟨res.msb, res = 0x00000000#32,
   (a.msb && !b.msb && !res.msb) || (!a.msb && b.msb && res.msb),
   (!a.msb && b.msb) || (res.msb && (!a.msb || b.msb))⟩

/-- icc_mul (R29). -/
def iccMul (res : Word) : Icc := ⟨res.msb, res = 0x00000000#32, false, false⟩

/-- icc_div (R29). -/
def iccDiv (res : Word) (ovf : Bool) : Icc := ⟨res.msb, res = 0x00000000#32, ovf, false⟩

/-! ## Branch conditions (R200's table, R202 to R217) -/

/-- BN: never (R202). -/
def condBn (_ : Icc) : Bool := false
/-- BE: z (R203). -/
def condBe (f : Icc) : Bool := f.z
/-- BLE: z OR (n XOR v) (R204). -/
def condBle (f : Icc) : Bool := f.z || (f.n ^^ f.v)
/-- BL: n XOR v (R205). -/
def condBl (f : Icc) : Bool := f.n ^^ f.v
/-- BLEU: c OR z (R206). -/
def condBleu (f : Icc) : Bool := f.c || f.z
/-- BCS: c (R207). -/
def condBcs (f : Icc) : Bool := f.c
/-- BNEG: n (R208). -/
def condBneg (f : Icc) : Bool := f.n
/-- BVS: v (R209). -/
def condBvs (f : Icc) : Bool := f.v
/-- BA: always (R210). -/
def condBa (_ : Icc) : Bool := true
/-- BNE: NOT z (R211). -/
def condBne (f : Icc) : Bool := !f.z
/-- BG: NOT (z OR (n XOR v)) (R212). -/
def condBg (f : Icc) : Bool := !(f.z || (f.n ^^ f.v))
/-- BGE: NOT (n XOR v) (R213). -/
def condBge (f : Icc) : Bool := !(f.n ^^ f.v)
/-- BGU: NOT (c OR z) (R214). -/
def condBgu (f : Icc) : Bool := !(f.c || f.z)
/-- BCC: NOT c (R215). -/
def condBcc (f : Icc) : Bool := !f.c
/-- BPOS: NOT n (R216). -/
def condBpos (f : Icc) : Bool := !f.n
/-- BVC: NOT v (R217). -/
def condBvc (f : Icc) : Bool := !f.v

end Sys2Proof.Machine
end

