-- ==== Sys2Proof/Machine/Operands.lean ====
section
/-! DEFINITION. Operand 2, the effective address and the targets of transfers. -/

namespace Sys2Proof.Machine

/-- Operand 2 (00_scope.md R9; 30_encoding.md R85, R88): x[rs2], or simm13 sign-extended to 32 bits. -/
def State.operand2 (s : State) : Operand2 → Word
  | .reg rs2 => s.readReg rs2
  | .imm simm13 => simm13.signExtend 32

/-- The effective address of LD and ST, and the target of JMPL: x[rs1] + op2 modulo 2^32, a byte
address taken as it is (44_load_store.md R190; 46_call_jump.md R231). -/
def State.address (s : State) (rs1 : RegNum) (o : Operand2) : Word := s.readReg rs1 + s.operand2 o

/-- The low sixteen bits of a multiply's operand (42_mul_div.md R160). -/
def low16 (w : Word) : BitVec 16 := w.extractLsb' 0 16

/-- A shift's count: the low five bits of operand 2 (43_shift.md R180). -/
def shiftCount (w : Word) : Nat := (w.extractLsb' 0 5).toNat

/-- The target of a taken branch: pc + 4 * sext(disp22) modulo 2^32 (30_encoding.md R89). -/
def branchTarget (pc : Word) (disp22 : BitVec 22) : Word := pc + 4#32 * disp22.signExtend 32

/-- The target of CALL: pc + 4 * disp30 modulo 2^32 (30_encoding.md R90). -/
def callTarget (pc : Word) (disp30 : BitVec 30) : Word := pc + 4#32 * disp30.setWidth 32

/-- %o7, the link register of CALL and RETL (10_state.md R22). -/
def o7 : RegNum := 15#5

end Sys2Proof.Machine
end

