-- ==== Sys2Proof/Machine/AddSub.lean ====
section
/-! DEFINITION. ADD, SUB, ADDX, SUBX and their cc forms (41_add_sub.md R140 to R148). Results wrap
modulo 2^32 and nothing faults. -/

namespace Sys2Proof.Machine

/-- ADD (R141). -/
def execAdd (rd rs1 : RegNum) (o : Operand2) (s : State) : StepOutcome :=
  complete rd (s.readReg rs1 + s.operand2 o) s

/-- SUB (R142). -/
def execSub (rd rs1 : RegNum) (o : Operand2) (s : State) : StepOutcome :=
  complete rd (s.readReg rs1 - s.operand2 o) s

/-- ADDX (R143). -/
def execAddx (rd rs1 : RegNum) (o : Operand2) (s : State) : StepOutcome :=
  complete rd (s.readReg rs1 + s.operand2 o + carryWord s.icc.c) s

/-- SUBX (R144). -/
def execSubx (rd rs1 : RegNum) (o : Operand2) (s : State) : StepOutcome :=
  complete rd (s.readReg rs1 - s.operand2 o - carryWord s.icc.c) s

/-- ADDcc (R145). -/
def execAddcc (rd rs1 : RegNum) (o : Operand2) (s : State) : StepOutcome :=
  completeCc rd (s.readReg rs1 + s.operand2 o)
    (iccAdd (s.readReg rs1) (s.operand2 o) (s.readReg rs1 + s.operand2 o)) s

/-- SUBcc (R146). -/
def execSubcc (rd rs1 : RegNum) (o : Operand2) (s : State) : StepOutcome :=
  completeCc rd (s.readReg rs1 - s.operand2 o)
    (iccSub (s.readReg rs1) (s.operand2 o) (s.readReg rs1 - s.operand2 o)) s

/-- ADDXcc (R147). -/
def execAddxcc (rd rs1 : RegNum) (o : Operand2) (s : State) : StepOutcome :=
  completeCc rd (s.readReg rs1 + s.operand2 o + carryWord s.icc.c)
    (iccAdd (s.readReg rs1) (s.operand2 o) (s.readReg rs1 + s.operand2 o + carryWord s.icc.c)) s

/-- SUBXcc (R148). -/
def execSubxcc (rd rs1 : RegNum) (o : Operand2) (s : State) : StepOutcome :=
  completeCc rd (s.readReg rs1 - s.operand2 o - carryWord s.icc.c)
    (iccSub (s.readReg rs1) (s.operand2 o) (s.readReg rs1 - s.operand2 o - carryWord s.icc.c)) s

end Sys2Proof.Machine
end

