-- ==== Sys2Proof/Machine/Branch.lean ====
section
/-! DEFINITION. The sixteen branches (45_branch.md R200 to R217). A taken branch takes effect at once:
there is no delay instruction (10_state.md R26). -/

namespace Sys2Proof.Machine

/-- `pc <- pc + 4 * sext_32(disp22)` when the condition holds, else `pc <- pc + 4` (R200). -/
def branchIf (taken : Bool) (disp22 : BitVec 22) (s : State) : StepOutcome :=
  if taken then .next (s.setPc (branchTarget s.pc disp22)) else .next s.advance

/-- BN (R202). -/
def execBn (disp22 : BitVec 22) (s : State) : StepOutcome := branchIf (condBn s.icc) disp22 s

/-- BE (R203). -/
def execBe (disp22 : BitVec 22) (s : State) : StepOutcome := branchIf (condBe s.icc) disp22 s

/-- BLE (R204). -/
def execBle (disp22 : BitVec 22) (s : State) : StepOutcome := branchIf (condBle s.icc) disp22 s

/-- BL (R205). -/
def execBl (disp22 : BitVec 22) (s : State) : StepOutcome := branchIf (condBl s.icc) disp22 s

/-- BLEU (R206). -/
def execBleu (disp22 : BitVec 22) (s : State) : StepOutcome := branchIf (condBleu s.icc) disp22 s

/-- BCS (R207). -/
def execBcs (disp22 : BitVec 22) (s : State) : StepOutcome := branchIf (condBcs s.icc) disp22 s

/-- BNEG (R208). -/
def execBneg (disp22 : BitVec 22) (s : State) : StepOutcome := branchIf (condBneg s.icc) disp22 s

/-- BVS (R209). -/
def execBvs (disp22 : BitVec 22) (s : State) : StepOutcome := branchIf (condBvs s.icc) disp22 s

/-- BA (R210). -/
def execBa (disp22 : BitVec 22) (s : State) : StepOutcome := branchIf (condBa s.icc) disp22 s

/-- BNE (R211). -/
def execBne (disp22 : BitVec 22) (s : State) : StepOutcome := branchIf (condBne s.icc) disp22 s

/-- BG (R212). -/
def execBg (disp22 : BitVec 22) (s : State) : StepOutcome := branchIf (condBg s.icc) disp22 s

/-- BGE (R213). -/
def execBge (disp22 : BitVec 22) (s : State) : StepOutcome := branchIf (condBge s.icc) disp22 s

/-- BGU (R214). -/
def execBgu (disp22 : BitVec 22) (s : State) : StepOutcome := branchIf (condBgu s.icc) disp22 s

/-- BCC (R215). -/
def execBcc (disp22 : BitVec 22) (s : State) : StepOutcome := branchIf (condBcc s.icc) disp22 s

/-- BPOS (R216). -/
def execBpos (disp22 : BitVec 22) (s : State) : StepOutcome := branchIf (condBpos s.icc) disp22 s

/-- BVC (R217). -/
def execBvc (disp22 : BitVec 22) (s : State) : StepOutcome := branchIf (condBvc s.icc) disp22 s

end Sys2Proof.Machine
end

