-- ==== Sys2Proof/Machine/CallJump.lean ====
section
/-! DEFINITION. CALL, JMPL and RETL (46_call_jump.md R230 to R233). -/

namespace Sys2Proof.Machine

/-- `x[rd] <- pc; pc <- target`, unless the target is not a multiple of 4: then nothing is written
(R231, R233). -/
def jumpAndLink (rd : RegNum) (target : Word) (s : State) : StepOutcome :=
  if !isAligned target then raise (.memAddressNotAligned target) s
  else .next ((s.writeReg rd s.pc).setPc target)

/-- CALL (R230): the link is the address of the CALL itself. -/
def execCall (disp30 : BitVec 30) (s : State) : StepOutcome :=
  .next ((s.writeReg o7 s.pc).setPc (callTarget s.pc disp30))

/-- JMPL (R231): the target is read before x[rd] is written. -/
def execJmpl (rd rs1 : RegNum) (o : Operand2) (s : State) : StepOutcome :=
  jumpAndLink rd (s.address rs1 o) s

/-- RETL (R232): `JMPL R0,%o7+8`; the link goes to x[0] and is discarded. -/
def execRetl (s : State) : StepOutcome := jumpAndLink 0#5 (s.readReg o7 + 8#32) s

end Sys2Proof.Machine
end

