-- ==== Sys2Proof/Machine/LoadStore.lean ====
section
/-! DEFINITION. LD and ST (44_load_store.md R190 to R192; 20_memory.md R52, R54, R55). -/

namespace Sys2Proof.Machine

/-- LD (R191): alignment first, then presence in MEM_REGIONS, then `x[rd] <- w; pc <- pc + 4`. With
rd = 0 the access still happens and can fault. -/
def execLd (rd rs1 : RegNum) (o : Operand2) (s : State) : StepOutcome :=
  if !isAligned (s.address rs1 o) then raise (.memAddressNotAligned (s.address rs1 o)) s
  else if !s.inRegions (s.address rs1 o) then raise (.dataAccess (s.address rs1 o)) s
  else complete rd (s.loadWord (s.address rs1 o)) s

/-- ST (R192): the same checks, then the word in x[rd] is stored; no register is written. -/
def execSt (rd rs1 : RegNum) (o : Operand2) (s : State) : StepOutcome :=
  if !isAligned (s.address rs1 o) then raise (.memAddressNotAligned (s.address rs1 o)) s
  else if !s.inRegions (s.address rs1 o) then raise (.dataAccess (s.address rs1 o)) s
  else .next (s.storeWord (s.address rs1 o) (s.readReg rd)).advance

end Sys2Proof.Machine
end

