-- ==== Sys2Proof/Machine/Logical.lean ====
section
/-! DEFINITION. The twelve logical instructions (40_logical.md R120 to R132). -/

namespace Sys2Proof.Machine

/-- AND (R121). -/
def execAnd (rd rs1 : RegNum) (o : Operand2) (s : State) : StepOutcome :=
  complete rd (s.readReg rs1 &&& s.operand2 o) s

/-- OR (R122). -/
def execOr (rd rs1 : RegNum) (o : Operand2) (s : State) : StepOutcome :=
  complete rd (s.readReg rs1 ||| s.operand2 o) s

/-- XOR (R123). -/
def execXor (rd rs1 : RegNum) (o : Operand2) (s : State) : StepOutcome :=
  complete rd (s.readReg rs1 ^^^ s.operand2 o) s

/-- ANDN (R124). -/
def execAndn (rd rs1 : RegNum) (o : Operand2) (s : State) : StepOutcome :=
  complete rd (s.readReg rs1 &&& ~~~s.operand2 o) s

/-- ORN (R125). -/
def execOrn (rd rs1 : RegNum) (o : Operand2) (s : State) : StepOutcome :=
  complete rd (s.readReg rs1 ||| ~~~s.operand2 o) s

/-- XNOR (R126). -/
def execXnor (rd rs1 : RegNum) (o : Operand2) (s : State) : StepOutcome :=
  complete rd (~~~(s.readReg rs1 ^^^ s.operand2 o)) s

/-- ANDcc (R127). -/
def execAndcc (rd rs1 : RegNum) (o : Operand2) (s : State) : StepOutcome :=
  completeCc rd (s.readReg rs1 &&& s.operand2 o) (iccLogic (s.readReg rs1 &&& s.operand2 o)) s

/-- ORcc (R128). -/
def execOrcc (rd rs1 : RegNum) (o : Operand2) (s : State) : StepOutcome :=
  completeCc rd (s.readReg rs1 ||| s.operand2 o) (iccLogic (s.readReg rs1 ||| s.operand2 o)) s

/-- XORcc (R129). -/
def execXorcc (rd rs1 : RegNum) (o : Operand2) (s : State) : StepOutcome :=
  completeCc rd (s.readReg rs1 ^^^ s.operand2 o) (iccLogic (s.readReg rs1 ^^^ s.operand2 o)) s

/-- ANDNcc (R130). -/
def execAndncc (rd rs1 : RegNum) (o : Operand2) (s : State) : StepOutcome :=
  completeCc rd (s.readReg rs1 &&& ~~~s.operand2 o) (iccLogic (s.readReg rs1 &&& ~~~s.operand2 o)) s

/-- ORNcc (R131). -/
def execOrncc (rd rs1 : RegNum) (o : Operand2) (s : State) : StepOutcome :=
  completeCc rd (s.readReg rs1 ||| ~~~s.operand2 o) (iccLogic (s.readReg rs1 ||| ~~~s.operand2 o)) s

/-- XNORcc (R132). -/
def execXnorcc (rd rs1 : RegNum) (o : Operand2) (s : State) : StepOutcome :=
  completeCc rd (~~~(s.readReg rs1 ^^^ s.operand2 o)) (iccLogic (~~~(s.readReg rs1 ^^^ s.operand2 o))) s

end Sys2Proof.Machine
end

