-- ==== Sys2Proof/Machine/MulDiv.lean ====
section
/-! DEFINITION. Multiply and divide (42_mul_div.md R160 to R169). -/

namespace Sys2Proof.Machine

/-- The unsigned product of the low halves, exact in 32 bits (R160, R161). -/
def unsignedProduct (a b : Word) : Word := BitVec.ofNat 32 ((low16 a).toNat * (low16 b).toNat)

/-- The signed product of the low halves, exact in 32 bits (R160, R162). -/
def signedProduct (a b : Word) : Word := BitVec.ofInt 32 ((low16 a).toInt * (low16 b).toInt)

/-- floor(u(a) / u(b)), for b other than 0 (R166). -/
def unsignedQuotient (a b : Word) : Word := BitVec.ofNat 32 (a.toNat / b.toNat)

/-- sign(s(a)) * sign(s(b)) * floor(|s(a)| / |s(b)|): rounded toward zero, for b other than 0 and not
the overflow case (R167). -/
def signedQuotient (a b : Word) : Word :=
  BitVec.ofInt 32 (a.toInt.sign * b.toInt.sign * ((a.toInt.natAbs / b.toInt.natAbs : Nat) : Int))

/-- The one quotient no 32-bit signed value holds: -2^31 by -1 (R167). -/
def signedQuotientOverflows (a b : Word) : Bool := a = 0x80000000#32 && b = 0xFFFFFFFF#32

/-- UMUL (R161). -/
def execUmul (rd rs1 : RegNum) (o : Operand2) (s : State) : StepOutcome :=
  complete rd (unsignedProduct (s.readReg rs1) (s.operand2 o)) s

/-- SMUL (R162). -/
def execSmul (rd rs1 : RegNum) (o : Operand2) (s : State) : StepOutcome :=
  complete rd (signedProduct (s.readReg rs1) (s.operand2 o)) s

/-- UMULcc (R163). -/
def execUmulcc (rd rs1 : RegNum) (o : Operand2) (s : State) : StepOutcome :=
  completeCc rd (unsignedProduct (s.readReg rs1) (s.operand2 o))
    (iccMul (unsignedProduct (s.readReg rs1) (s.operand2 o))) s

/-- SMULcc (R164). -/
def execSmulcc (rd rs1 : RegNum) (o : Operand2) (s : State) : StepOutcome :=
  completeCc rd (signedProduct (s.readReg rs1) (s.operand2 o))
    (iccMul (signedProduct (s.readReg rs1) (s.operand2 o))) s

/-- UDIV (R166): the zero test comes before any write (R165). -/
def execUdiv (rd rs1 : RegNum) (o : Operand2) (s : State) : StepOutcome :=
  if s.operand2 o = 0x00000000#32 then raise (.divisionByZero s.pc) s
  else complete rd (unsignedQuotient (s.readReg rs1) (s.operand2 o)) s

/-- SDIV (R167). The overflow case writes a draw, a free value (log 14). -/
def execSdiv (rd rs1 : RegNum) (o : Operand2) (s : State) : StepOutcome :=
  if s.operand2 o = 0x00000000#32 then raise (.divisionByZero s.pc) s
  else if signedQuotientOverflows (s.readReg rs1) (s.operand2 o) then complete rd s.drawnWord s.countDraw
  else complete rd (signedQuotient (s.readReg rs1) (s.operand2 o)) s

/-- UDIVcc (R168). -/
def execUdivcc (rd rs1 : RegNum) (o : Operand2) (s : State) : StepOutcome :=
  if s.operand2 o = 0x00000000#32 then raise (.divisionByZero s.pc) s
  else completeCc rd (unsignedQuotient (s.readReg rs1) (s.operand2 o))
    (iccDiv (unsignedQuotient (s.readReg rs1) (s.operand2 o)) false) s

/-- SDIVcc (R169). In the overflow case x[rd] and all four flags are draws, free values (log 14). -/
def execSdivcc (rd rs1 : RegNum) (o : Operand2) (s : State) : StepOutcome :=
  if s.operand2 o = 0x00000000#32 then raise (.divisionByZero s.pc) s
  else if signedQuotientOverflows (s.readReg rs1) (s.operand2 o) then
    completeCc rd s.drawnWord s.drawnIcc s.countDraw
  else completeCc rd (signedQuotient (s.readReg rs1) (s.operand2 o))
    (iccDiv (signedQuotient (s.readReg rs1) (s.operand2 o)) false) s

end Sys2Proof.Machine
end

