-- ==== Sys2Proof/Machine/Sethi.lean ====
section
/-! DEFINITION. SETHI (47_sethi.md R240). -/

namespace Sys2Proof.Machine

/-- SETHI (R240; 30_encoding.md R91): bits 31:10 get the constant, bits 9:0 become zero. -/
def execSethi (rd : RegNum) (imm22 : BitVec 22) (s : State) : StepOutcome := complete rd (imm22 ++ 0#10) s

end Sys2Proof.Machine
end

