-- ==== Sys2Proof/Machine/Shift.lean ====
section
/-! DEFINITION. The shifts (43_shift.md R180 to R183): no shift reads or writes icc. -/

namespace Sys2Proof.Machine

/-- SLL (R181): fills with zeros. -/
def execSll (rd rs1 : RegNum) (o : Operand2) (s : State) : StepOutcome :=
  complete rd (s.readReg rs1 <<< shiftCount (s.operand2 o)) s

/-- SRL (R182): fills with zeros. -/
def execSrl (rd rs1 : RegNum) (o : Operand2) (s : State) : StepOutcome :=
  complete rd (s.readReg rs1 >>> shiftCount (s.operand2 o)) s

/-- SRA (R183; 90_conflicts.md C8): fills with the sign. -/
def execSra (rd rs1 : RegNum) (o : Operand2) (s : State) : StepOutcome :=
  complete rd ((s.readReg rs1).sshiftRight (shiftCount (s.operand2 o))) s

end Sys2Proof.Machine
end

