-- ==== Sys2Proof/Machine/Dispatch.lean ====
section
/-! DEFINITION. Which meaning each instruction has: one arm per constructor, in the table's order. -/

namespace Sys2Proof.Machine

def exec (i : Instr) (s : State) : Host.Outcome State Fault Refusal :=
  match i with
  | .add rd rs1 op2 => Sys2Proof.Machine.execAdd rd rs1 op2 s
  | .and rd rs1 op2 => Sys2Proof.Machine.execAnd rd rs1 op2 s
  | .or rd rs1 op2 => Sys2Proof.Machine.execOr rd rs1 op2 s
  | .xor rd rs1 op2 => Sys2Proof.Machine.execXor rd rs1 op2 s
  | .sub rd rs1 op2 => Sys2Proof.Machine.execSub rd rs1 op2 s
  | .andn rd rs1 op2 => Sys2Proof.Machine.execAndn rd rs1 op2 s
  | .orn rd rs1 op2 => Sys2Proof.Machine.execOrn rd rs1 op2 s
  | .xnor rd rs1 op2 => Sys2Proof.Machine.execXnor rd rs1 op2 s
  | .addx rd rs1 op2 => Sys2Proof.Machine.execAddx rd rs1 op2 s
  | .umul rd rs1 op2 => Sys2Proof.Machine.execUmul rd rs1 op2 s
  | .smul rd rs1 op2 => Sys2Proof.Machine.execSmul rd rs1 op2 s
  | .subx rd rs1 op2 => Sys2Proof.Machine.execSubx rd rs1 op2 s
  | .udiv rd rs1 op2 => Sys2Proof.Machine.execUdiv rd rs1 op2 s
  | .sdiv rd rs1 op2 => Sys2Proof.Machine.execSdiv rd rs1 op2 s
  | .addcc rd rs1 op2 => Sys2Proof.Machine.execAddcc rd rs1 op2 s
  | .andcc rd rs1 op2 => Sys2Proof.Machine.execAndcc rd rs1 op2 s
  | .orcc rd rs1 op2 => Sys2Proof.Machine.execOrcc rd rs1 op2 s
  | .xorcc rd rs1 op2 => Sys2Proof.Machine.execXorcc rd rs1 op2 s
  | .subcc rd rs1 op2 => Sys2Proof.Machine.execSubcc rd rs1 op2 s
  | .andncc rd rs1 op2 => Sys2Proof.Machine.execAndncc rd rs1 op2 s
  | .orncc rd rs1 op2 => Sys2Proof.Machine.execOrncc rd rs1 op2 s
  | .xnorcc rd rs1 op2 => Sys2Proof.Machine.execXnorcc rd rs1 op2 s
  | .addxcc rd rs1 op2 => Sys2Proof.Machine.execAddxcc rd rs1 op2 s
  | .umulcc rd rs1 op2 => Sys2Proof.Machine.execUmulcc rd rs1 op2 s
  | .smulcc rd rs1 op2 => Sys2Proof.Machine.execSmulcc rd rs1 op2 s
  | .subxcc rd rs1 op2 => Sys2Proof.Machine.execSubxcc rd rs1 op2 s
  | .udivcc rd rs1 op2 => Sys2Proof.Machine.execUdivcc rd rs1 op2 s
  | .sdivcc rd rs1 op2 => Sys2Proof.Machine.execSdivcc rd rs1 op2 s
  | .sll rd rs1 op2 => Sys2Proof.Machine.execSll rd rs1 op2 s
  | .srl rd rs1 op2 => Sys2Proof.Machine.execSrl rd rs1 op2 s
  | .sra rd rs1 op2 => Sys2Proof.Machine.execSra rd rs1 op2 s
  | .ld rd rs1 op2 => Sys2Proof.Machine.execLd rd rs1 op2 s
  | .st rd rs1 op2 => Sys2Proof.Machine.execSt rd rs1 op2 s
  | .bn disp22 => Sys2Proof.Machine.execBn disp22 s
  | .be disp22 => Sys2Proof.Machine.execBe disp22 s
  | .ble disp22 => Sys2Proof.Machine.execBle disp22 s
  | .bl disp22 => Sys2Proof.Machine.execBl disp22 s
  | .bleu disp22 => Sys2Proof.Machine.execBleu disp22 s
  | .bcs disp22 => Sys2Proof.Machine.execBcs disp22 s
  | .bneg disp22 => Sys2Proof.Machine.execBneg disp22 s
  | .bvs disp22 => Sys2Proof.Machine.execBvs disp22 s
  | .ba disp22 => Sys2Proof.Machine.execBa disp22 s
  | .bne disp22 => Sys2Proof.Machine.execBne disp22 s
  | .bg disp22 => Sys2Proof.Machine.execBg disp22 s
  | .bge disp22 => Sys2Proof.Machine.execBge disp22 s
  | .bgu disp22 => Sys2Proof.Machine.execBgu disp22 s
  | .bcc disp22 => Sys2Proof.Machine.execBcc disp22 s
  | .bpos disp22 => Sys2Proof.Machine.execBpos disp22 s
  | .bvc disp22 => Sys2Proof.Machine.execBvc disp22 s
  | .call disp30 => Sys2Proof.Machine.execCall disp30 s
  | .retl => Sys2Proof.Machine.execRetl s
  | .jmpl rd rs1 op2 => Sys2Proof.Machine.execJmpl rd rs1 op2 s
  | .sethi rd imm22 => Sys2Proof.Machine.execSethi rd imm22 s

end Sys2Proof.Machine
end

