-- ==== Sys2Proof/Machine/Fetch.lean ====
section
/-! DEFINITION. Fetching and decoding the instruction at pc, in the order of the checks
(60_exceptions.md R273 items 1 to 3; 70_reset_and_hazards.md R302), and placing a word there. -/

namespace Sys2Proof.Machine

/-- What the fetch and decode of one step give. -/
inductive Fetched where
  | instr (i : Instr)
  | raises (f : Fault)
deriving DecidableEq, Repr

/-- pc alignment, then presence of pc in MEM_REGIONS, then decode: the first check that fails names
the fault (R273). -/
def fetchInstr (s : State) : Fetched :=
  if !isAligned s.pc then .raises (.memAddressNotAligned s.pc)
  else if !s.inRegions s.pc then .raises (.instructionAccess s.pc)
  else match decode s.fetchWord with
    | .instr i => .instr i
    | .illegal _ => .raises (.illegalInstruction s.fetchWord)

/-- pc with its two low bits cleared: pc itself in every state the machine reaches (10_state.md R27). -/
def alignedPc (s : State) : Word := s.pc &&& 0xFFFFFFFC#32

/-- MEM_REGIONS with the word at address a in it. -/
def regionsWith (regions : List Config.Region) (a : Nat) : List Config.Region :=
  if holdsWordAt regions a then regions else ⟨a, a + 3⟩ :: regions

/-- The state ready to fetch w: no faulted condition, pc aligned, its word in MEM_REGIONS, and w stored
where the fetch reads (log 19). -/
def readyToFetch (s : State) (w : Word) : State :=
  let t := { s with
    faulted := none
    pc := alignedPc s
    params := { s.params with memRegions := regionsWith s.params.memRegions (alignedPc s).toNat } }
  t.placeWord t.pc w

end Sys2Proof.Machine
end

