-- ==== Sys2Proof/Machine/Step.lean ====
section
/-! DEFINITION. One step (70_reset_and_hazards.md R302; 60_exceptions.md R270, R273). -/

namespace Sys2Proof.Machine

/-- One step. A faulted state has no successor (R270): the outcome is the recorded fault. Otherwise the
instruction at pc is fetched, decoded and executed, or the fault of the first failed check is raised. -/
def step (s : State) : Host.Outcome State Fault Refusal :=
  match s.faulted with
  | some f => .fault f
  | none =>
    match fetchInstr s with
    | .instr i => exec i s
    | .raises f => raise f s

/-- s with the instruction whose bits are w stored where `step` fetches next (log 19). Bits from
`nbits` up are zero; an instruction is 32 bits. -/
def State.withFetchWord (s : State) (nbits w : Nat) : State :=
  readyToFetch s (BitVec.ofNat 32 (w % 2 ^ nbits))

end Sys2Proof.Machine
end

