-- ==== Sys2Proof/Machine/Assembly.lean ====
section
/-! DEFINITION. The assembler spelling of an instruction (30_encoding.md R98) and the displacements an
assembler computes (R89, R90). No step reads anything of this file. -/

namespace Sys2Proof.Machine

/-- An instruction's mnemonic, as spec/opcode_table.json spells it. -/
def mnemonic : Instr → String
  | .add _ _ _ => "ADD"
  | .and _ _ _ => "AND"
  | .or _ _ _ => "OR"
  | .xor _ _ _ => "XOR"
  | .sub _ _ _ => "SUB"
  | .andn _ _ _ => "ANDN"
  | .orn _ _ _ => "ORN"
  | .xnor _ _ _ => "XNOR"
  | .addx _ _ _ => "ADDX"
  | .umul _ _ _ => "UMUL"
  | .smul _ _ _ => "SMUL"
  | .subx _ _ _ => "SUBX"
  | .udiv _ _ _ => "UDIV"
  | .sdiv _ _ _ => "SDIV"
  | .addcc _ _ _ => "ADDcc"
  | .andcc _ _ _ => "ANDcc"
  | .orcc _ _ _ => "ORcc"
  | .xorcc _ _ _ => "XORcc"
  | .subcc _ _ _ => "SUBcc"
  | .andncc _ _ _ => "ANDNcc"
  | .orncc _ _ _ => "ORNcc"
  | .xnorcc _ _ _ => "XNORcc"
  | .addxcc _ _ _ => "ADDXcc"
  | .umulcc _ _ _ => "UMULcc"
  | .smulcc _ _ _ => "SMULcc"
  | .subxcc _ _ _ => "SUBXcc"
  | .udivcc _ _ _ => "UDIVcc"
  | .sdivcc _ _ _ => "SDIVcc"
  | .sll _ _ _ => "SLL"
  | .srl _ _ _ => "SRL"
  | .sra _ _ _ => "SRA"
  | .ld _ _ _ => "LD"
  | .st _ _ _ => "ST"
  | .bn _ => "BN"
  | .be _ => "BE"
  | .ble _ => "BLE"
  | .bl _ => "BL"
  | .bleu _ => "BLEU"
  | .bcs _ => "BCS"
  | .bneg _ => "BNEG"
  | .bvs _ => "BVS"
  | .ba _ => "BA"
  | .bne _ => "BNE"
  | .bg _ => "BG"
  | .bge _ => "BGE"
  | .bgu _ => "BGU"
  | .bcc _ => "BCC"
  | .bpos _ => "BPOS"
  | .bvc _ => "BVC"
  | .call _ => "CALL"
  | .retl => "RETL"
  | .jmpl _ _ _ => "JMPL"
  | .sethi _ _ => "SETHI"

/-- General register N is spelled xN (R98). -/
def regText (r : RegNum) : String := "x" ++ toString r.toNat

/-- rs2cte13: a register, or the constant in signed decimal (R98). -/
def operand2Text : Operand2 → String
  | .reg rs2 => regText rs2
  | .imm simm13 => toString simm13.toInt

/-- The operands, destination first (R98): a displacement is the field itself, in instructions. -/
def operandsText : Instr → String
  | .ld rd rs1 o => " " ++ regText rd ++ ",[" ++ regText rs1 ++ "+" ++ operand2Text o ++ "]"
  | .st rd rs1 o => " [" ++ regText rs1 ++ "+" ++ operand2Text o ++ "]," ++ regText rd
  | .jmpl rd rs1 o => " " ++ regText rd ++ "," ++ regText rs1 ++ "+" ++ operand2Text o
  | .sethi rd imm22 => " " ++ regText rd ++ "," ++ toString imm22.toNat
  | .call d => " " ++ toString d.toInt
  | .retl => ""
  | .add rd rs1 o => " " ++ regText rd ++ "," ++ regText rs1 ++ "," ++ operand2Text o
  | .and rd rs1 o => " " ++ regText rd ++ "," ++ regText rs1 ++ "," ++ operand2Text o
  | .or rd rs1 o => " " ++ regText rd ++ "," ++ regText rs1 ++ "," ++ operand2Text o
  | .xor rd rs1 o => " " ++ regText rd ++ "," ++ regText rs1 ++ "," ++ operand2Text o
  | .sub rd rs1 o => " " ++ regText rd ++ "," ++ regText rs1 ++ "," ++ operand2Text o
  | .andn rd rs1 o => " " ++ regText rd ++ "," ++ regText rs1 ++ "," ++ operand2Text o
  | .orn rd rs1 o => " " ++ regText rd ++ "," ++ regText rs1 ++ "," ++ operand2Text o
  | .xnor rd rs1 o => " " ++ regText rd ++ "," ++ regText rs1 ++ "," ++ operand2Text o
  | .addx rd rs1 o => " " ++ regText rd ++ "," ++ regText rs1 ++ "," ++ operand2Text o
  | .umul rd rs1 o => " " ++ regText rd ++ "," ++ regText rs1 ++ "," ++ operand2Text o
  | .smul rd rs1 o => " " ++ regText rd ++ "," ++ regText rs1 ++ "," ++ operand2Text o
  | .subx rd rs1 o => " " ++ regText rd ++ "," ++ regText rs1 ++ "," ++ operand2Text o
  | .udiv rd rs1 o => " " ++ regText rd ++ "," ++ regText rs1 ++ "," ++ operand2Text o
  | .sdiv rd rs1 o => " " ++ regText rd ++ "," ++ regText rs1 ++ "," ++ operand2Text o
  | .addcc rd rs1 o => " " ++ regText rd ++ "," ++ regText rs1 ++ "," ++ operand2Text o
  | .andcc rd rs1 o => " " ++ regText rd ++ "," ++ regText rs1 ++ "," ++ operand2Text o
  | .orcc rd rs1 o => " " ++ regText rd ++ "," ++ regText rs1 ++ "," ++ operand2Text o
  | .xorcc rd rs1 o => " " ++ regText rd ++ "," ++ regText rs1 ++ "," ++ operand2Text o
  | .subcc rd rs1 o => " " ++ regText rd ++ "," ++ regText rs1 ++ "," ++ operand2Text o
  | .andncc rd rs1 o => " " ++ regText rd ++ "," ++ regText rs1 ++ "," ++ operand2Text o
  | .orncc rd rs1 o => " " ++ regText rd ++ "," ++ regText rs1 ++ "," ++ operand2Text o
  | .xnorcc rd rs1 o => " " ++ regText rd ++ "," ++ regText rs1 ++ "," ++ operand2Text o
  | .addxcc rd rs1 o => " " ++ regText rd ++ "," ++ regText rs1 ++ "," ++ operand2Text o
  | .umulcc rd rs1 o => " " ++ regText rd ++ "," ++ regText rs1 ++ "," ++ operand2Text o
  | .smulcc rd rs1 o => " " ++ regText rd ++ "," ++ regText rs1 ++ "," ++ operand2Text o
  | .subxcc rd rs1 o => " " ++ regText rd ++ "," ++ regText rs1 ++ "," ++ operand2Text o
  | .udivcc rd rs1 o => " " ++ regText rd ++ "," ++ regText rs1 ++ "," ++ operand2Text o
  | .sdivcc rd rs1 o => " " ++ regText rd ++ "," ++ regText rs1 ++ "," ++ operand2Text o
  | .sll rd rs1 o => " " ++ regText rd ++ "," ++ regText rs1 ++ "," ++ operand2Text o
  | .srl rd rs1 o => " " ++ regText rd ++ "," ++ regText rs1 ++ "," ++ operand2Text o
  | .sra rd rs1 o => " " ++ regText rd ++ "," ++ regText rs1 ++ "," ++ operand2Text o
  | .bn d => " " ++ toString d.toInt
  | .be d => " " ++ toString d.toInt
  | .ble d => " " ++ toString d.toInt
  | .bl d => " " ++ toString d.toInt
  | .bleu d => " " ++ toString d.toInt
  | .bcs d => " " ++ toString d.toInt
  | .bneg d => " " ++ toString d.toInt
  | .bvs d => " " ++ toString d.toInt
  | .ba d => " " ++ toString d.toInt
  | .bne d => " " ++ toString d.toInt
  | .bg d => " " ++ toString d.toInt
  | .bge d => " " ++ toString d.toInt
  | .bgu d => " " ++ toString d.toInt
  | .bcc d => " " ++ toString d.toInt
  | .bpos d => " " ++ toString d.toInt
  | .bvc d => " " ++ toString d.toInt

/-- One assembler line (R98; log 22). -/
def asmText (i : Instr) : String := mnemonic i ++ operandsText i

/-- The disp22 of a branch at pc to a target: (target - pc) / 4 (45_branch.md R200). -/
def branchDisp (pc target : Word) : BitVec 22 := ((target - pc) >>> 2).setWidth 22

/-- The disp30 of a CALL at pc to a target: ((target - pc) >> 2) mod 2^30 (R90). -/
def callDisp (pc target : Word) : BitVec 30 := ((target - pc) >>> 2).setWidth 30

end Sys2Proof.Machine
end

