-- ==== Sys2Proof/Machine/Run.lean ====
section
/-! DEFINITION. The run: what the host does before it, and what ends it (70_reset_and_hazards.md R300,
R306, R310). -/

namespace Sys2Proof.Machine

/-- What the host loads: words by address (R310). -/
abbrev Image := List (Word × Word)

/-- R310's condition on an entry: a 4-aligned address inside MEM_REGIONS. -/
def imageEntryFits (p : Config.Params) (e : Word × Word) : Bool :=
  isAligned e.1 && holdsWordAt p.memRegions e.1.toNat

/-- A memory with an image loaded into it, most significant byte first (R310; 20_memory.md R51).
Entries that do not fit are left out (log 20); of two entries for one word the later stands. -/
def loadImage (p : Config.Params) (img : Image) (m : Memory) : Memory :=
  (img.filter (imageEntryFits p)).foldl (fun acc e => Memory.writeWord acc e.1.toNat e.2) m

/-- The initial state of a run (R300; 10_state.md R35): the host's parameters and images, and any
values at all in x[1] to x[31] and icc, which reset leaves unspecified (10_state.md R36). Under
MEM_ORG = split the text goes to the program memory and the data to the data memory (log 20). -/
def State.boot (p : Config.Params) (regs : Vector Word 31) (icc : Icc) (text data : Image) : State :=
  { regs := regs
    pc := p.resetPc
    icc := icc
    mem := match p.memOrg with
      | .unified => loadImage p (text ++ data) []
      | .split => loadImage p data []
    progMem := match p.memOrg with
      | .unified => []
      | .split => loadImage p text []
    faulted := none
    params := p
    draws := 0 }

/-- The state is final in all but name: the next step gives this state again (R306 (b)). -/
def selfLoops (s : State) : Bool :=
  match step s with
  | .next t => t = s
  | .fault _ => false
  | .refused _ => false

/-- Whether the run has ended: by a fault, or by END_OF_RUN (R306). -/
def runEnded (s : State) : Bool :=
  s.faulted.isSome ||
    match s.params.endOfRun with
    | .onFault => false
    | .selfLoop => selfLoops s
    | .stopAt a => s.pc = a

/-- The state after at most k steps of a run that stops when it has ended (R302, R306). -/
def runFor : Nat → State → State
  | 0, s => s
  | k + 1, s =>
    if runEnded s then s
    else match step s with
      | .next t => runFor k t
      | .fault _ => s
      | .refused _ => s

end Sys2Proof.Machine
end

