-- ==== Sys2Proof/Machine/Synonyms.lean ====
section
/-! DEFINITION. The seventeen synonyms: assembler spellings of core instructions, with no encoding of
their own (48_synonyms.md R245 to R262). -/

namespace Sys2Proof.Machine

/-- A synonym with its operands, in the order the source writes them. -/
inductive Synonym where
  /-- NOP (R246). -/
  | nop
  /-- MOV rd,rs2cte13 (R247). -/
  | mov (rd : RegNum) (op2 : Operand2)
  /-- CMP rs1,rs2cte13 (R248). -/
  | cmp (rs1 : RegNum) (op2 : Operand2)
  /-- TST rs2 (R249). -/
  | tst (rs2 : RegNum)
  /-- NOT rd,rs1 (R250). -/
  | not (rd rs1 : RegNum)
  /-- NEG rd,rs2 (R251). -/
  | neg (rd rs2 : RegNum)
  /-- INC rd,rs1 (R252). -/
  | inc (rd rs1 : RegNum)
  /-- DEC rd,rs1 (R253). -/
  | dec (rd rs1 : RegNum)
  /-- CLR rd (R254). -/
  | clr (rd : RegNum)
  /-- BnS cte22 (R255). -/
  | bnS (disp22 : BitVec 22)
  /-- BnC cte22 (R256). -/
  | bnC (disp22 : BitVec 22)
  /-- BzS cte22 (R257). -/
  | bzS (disp22 : BitVec 22)
  /-- BzC cte22 (R258). -/
  | bzC (disp22 : BitVec 22)
  /-- BcS cte22 (R259). -/
  | bcS (disp22 : BitVec 22)
  /-- BcC cte22 (R260). -/
  | bcC (disp22 : BitVec 22)
  /-- BvS cte22 (R261). -/
  | bvS (disp22 : BitVec 22)
  /-- BvC cte22 (R262). -/
  | bvC (disp22 : BitVec 22)
deriving DecidableEq, Repr

/-- The instruction a synonym stands for (R245; SUBB is SUB, 90_conflicts.md C7). -/
def Synonym.expand : Synonym → Instr
  | .nop => .add 0#5 0#5 (.reg 0#5)
  | .mov rd o => .add rd 0#5 o
  | .cmp rs1 o => .subcc 0#5 rs1 o
  | .tst rs2 => .orcc 0#5 0#5 (.reg rs2)
  | .not rd rs1 => .xnor rd rs1 (.reg 0#5)
  | .neg rd rs2 => .sub rd 0#5 (.reg rs2)
  | .inc rd rs1 => .add rd rs1 (.imm 1#13)
  | .dec rd rs1 => .sub rd rs1 (.imm 1#13)
  | .clr rd => .or rd 0#5 (.reg 0#5)
  | .bnS d => .bneg d
  | .bnC d => .bpos d
  | .bzS d => .be d
  | .bzC d => .bne d
  | .bcS d => .bcs d
  | .bcC d => .bcc d
  | .bvS d => .bvs d
  | .bvC d => .bvc d

end Sys2Proof.Machine
end

