-- ==== Sys2Proof/Safety.lean ====
section
/-! DEFINITION. What counts as a safe run and the terms claims are stated in: which instructions write
what, what a step leaves alone, and the invariant of the machine. -/

namespace Sys2Proof.Machine

/-! ## What an instruction writes (10_state.md R23, R28) -/

/-- The fourteen instructions with the suffix cc, the only ones that write icc (R28). -/
def writesIcc : Instr → Bool
  | .add _ _ _ => false
  | .and _ _ _ => false
  | .or _ _ _ => false
  | .xor _ _ _ => false
  | .sub _ _ _ => false
  | .andn _ _ _ => false
  | .orn _ _ _ => false
  | .xnor _ _ _ => false
  | .addx _ _ _ => false
  | .umul _ _ _ => false
  | .smul _ _ _ => false
  | .subx _ _ _ => false
  | .udiv _ _ _ => false
  | .sdiv _ _ _ => false
  | .addcc _ _ _ => true
  | .andcc _ _ _ => true
  | .orcc _ _ _ => true
  | .xorcc _ _ _ => true
  | .subcc _ _ _ => true
  | .andncc _ _ _ => true
  | .orncc _ _ _ => true
  | .xnorcc _ _ _ => true
  | .addxcc _ _ _ => true
  | .umulcc _ _ _ => true
  | .smulcc _ _ _ => true
  | .subxcc _ _ _ => true
  | .udivcc _ _ _ => true
  | .sdivcc _ _ _ => true
  | .sll _ _ _ => false
  | .srl _ _ _ => false
  | .sra _ _ _ => false
  | .ld _ _ _ => false
  | .st _ _ _ => false
  | .bn _ => false
  | .be _ => false
  | .ble _ => false
  | .bl _ => false
  | .bleu _ => false
  | .bcs _ => false
  | .bneg _ => false
  | .bvs _ => false
  | .ba _ => false
  | .bne _ => false
  | .bg _ => false
  | .bge _ => false
  | .bgu _ => false
  | .bcc _ => false
  | .bpos _ => false
  | .bvc _ => false
  | .call _ => false
  | .retl => false
  | .jmpl _ _ _ => false
  | .sethi _ _ => false

/-- The instructions that read icc: the branches all four flags, ADDX, SUBX, ADDXcc and SUBXcc the flag
c alone (R28). -/
inductive IccRead where
  | nothing
  | carryOnly
  | allFlags
deriving DecidableEq, Repr

/-- What an instruction reads of icc (R28). BN and BA, whose conditions are constants, count among the
branches. -/
def iccRead : Instr → IccRead
  | .add _ _ _ => .nothing
  | .and _ _ _ => .nothing
  | .or _ _ _ => .nothing
  | .xor _ _ _ => .nothing
  | .sub _ _ _ => .nothing
  | .andn _ _ _ => .nothing
  | .orn _ _ _ => .nothing
  | .xnor _ _ _ => .nothing
  | .addx _ _ _ => .carryOnly
  | .umul _ _ _ => .nothing
  | .smul _ _ _ => .nothing
  | .subx _ _ _ => .carryOnly
  | .udiv _ _ _ => .nothing
  | .sdiv _ _ _ => .nothing
  | .addcc _ _ _ => .nothing
  | .andcc _ _ _ => .nothing
  | .orcc _ _ _ => .nothing
  | .xorcc _ _ _ => .nothing
  | .subcc _ _ _ => .nothing
  | .andncc _ _ _ => .nothing
  | .orncc _ _ _ => .nothing
  | .xnorcc _ _ _ => .nothing
  | .addxcc _ _ _ => .carryOnly
  | .umulcc _ _ _ => .nothing
  | .smulcc _ _ _ => .nothing
  | .subxcc _ _ _ => .carryOnly
  | .udivcc _ _ _ => .nothing
  | .sdivcc _ _ _ => .nothing
  | .sll _ _ _ => .nothing
  | .srl _ _ _ => .nothing
  | .sra _ _ _ => .nothing
  | .ld _ _ _ => .nothing
  | .st _ _ _ => .nothing
  | .bn _ => .allFlags
  | .be _ => .allFlags
  | .ble _ => .allFlags
  | .bl _ => .allFlags
  | .bleu _ => .allFlags
  | .bcs _ => .allFlags
  | .bneg _ => .allFlags
  | .bvs _ => .allFlags
  | .ba _ => .allFlags
  | .bne _ => .allFlags
  | .bg _ => .allFlags
  | .bge _ => .allFlags
  | .bgu _ => .allFlags
  | .bcc _ => .allFlags
  | .bpos _ => .allFlags
  | .bvc _ => .allFlags
  | .call _ => .nothing
  | .retl => .nothing
  | .jmpl _ _ _ => .nothing
  | .sethi _ _ => .nothing

/-- The register an instruction writes, by R23's table; x[0] as a destination discards the write. -/
def destReg : Instr → Option RegNum
  | .add rd _ _ => some rd
  | .and rd _ _ => some rd
  | .or rd _ _ => some rd
  | .xor rd _ _ => some rd
  | .sub rd _ _ => some rd
  | .andn rd _ _ => some rd
  | .orn rd _ _ => some rd
  | .xnor rd _ _ => some rd
  | .addx rd _ _ => some rd
  | .umul rd _ _ => some rd
  | .smul rd _ _ => some rd
  | .subx rd _ _ => some rd
  | .udiv rd _ _ => some rd
  | .sdiv rd _ _ => some rd
  | .addcc rd _ _ => some rd
  | .andcc rd _ _ => some rd
  | .orcc rd _ _ => some rd
  | .xorcc rd _ _ => some rd
  | .subcc rd _ _ => some rd
  | .andncc rd _ _ => some rd
  | .orncc rd _ _ => some rd
  | .xnorcc rd _ _ => some rd
  | .addxcc rd _ _ => some rd
  | .umulcc rd _ _ => some rd
  | .smulcc rd _ _ => some rd
  | .subxcc rd _ _ => some rd
  | .udivcc rd _ _ => some rd
  | .sdivcc rd _ _ => some rd
  | .sll rd _ _ => some rd
  | .srl rd _ _ => some rd
  | .sra rd _ _ => some rd
  | .ld rd _ _ => some rd
  | .st _ _ _ => none
  | .bn _ => none
  | .be _ => none
  | .ble _ => none
  | .bl _ => none
  | .bleu _ => none
  | .bcs _ => none
  | .bneg _ => none
  | .bvs _ => none
  | .ba _ => none
  | .bne _ => none
  | .bg _ => none
  | .bge _ => none
  | .bgu _ => none
  | .bcc _ => none
  | .bpos _ => none
  | .bvc _ => none
  | .call _ => some o7
  | .retl => none
  | .jmpl rd _ _ => some rd
  | .sethi rd _ => some rd

/-- Operand 2 of a format 3 instruction (00_scope.md R9); RETL's is the constant 8 (46_call_jump.md
R232). The other formats have none. -/
def operand2Of : Instr → Option Operand2
  | .add _ _ o => some o
  | .and _ _ o => some o
  | .or _ _ o => some o
  | .xor _ _ o => some o
  | .sub _ _ o => some o
  | .andn _ _ o => some o
  | .orn _ _ o => some o
  | .xnor _ _ o => some o
  | .addx _ _ o => some o
  | .umul _ _ o => some o
  | .smul _ _ o => some o
  | .subx _ _ o => some o
  | .udiv _ _ o => some o
  | .sdiv _ _ o => some o
  | .addcc _ _ o => some o
  | .andcc _ _ o => some o
  | .orcc _ _ o => some o
  | .xorcc _ _ o => some o
  | .subcc _ _ o => some o
  | .andncc _ _ o => some o
  | .orncc _ _ o => some o
  | .xnorcc _ _ o => some o
  | .addxcc _ _ o => some o
  | .umulcc _ _ o => some o
  | .smulcc _ _ o => some o
  | .subxcc _ _ o => some o
  | .udivcc _ _ o => some o
  | .sdivcc _ _ o => some o
  | .sll _ _ o => some o
  | .srl _ _ o => some o
  | .sra _ _ o => some o
  | .ld _ _ o => some o
  | .st _ _ o => some o
  | .bn _ => none
  | .be _ => none
  | .ble _ => none
  | .bl _ => none
  | .bleu _ => none
  | .bcs _ => none
  | .bneg _ => none
  | .bvs _ => none
  | .ba _ => none
  | .bne _ => none
  | .bg _ => none
  | .bge _ => none
  | .bgu _ => none
  | .bcc _ => none
  | .bpos _ => none
  | .bvc _ => none
  | .call _ => none
  | .retl => some (.imm 8#13)
  | .jmpl _ _ o => some o
  | .sethi _ _ => none

/-- The instructions that never fault once decoded (60_exceptions.md R272): all but LD, ST, JMPL, RETL
and the four divides. -/
def neverFaults : Instr → Bool
  | .add _ _ _ => true
  | .and _ _ _ => true
  | .or _ _ _ => true
  | .xor _ _ _ => true
  | .sub _ _ _ => true
  | .andn _ _ _ => true
  | .orn _ _ _ => true
  | .xnor _ _ _ => true
  | .addx _ _ _ => true
  | .umul _ _ _ => true
  | .smul _ _ _ => true
  | .subx _ _ _ => true
  | .udiv _ _ _ => false
  | .sdiv _ _ _ => false
  | .addcc _ _ _ => true
  | .andcc _ _ _ => true
  | .orcc _ _ _ => true
  | .xorcc _ _ _ => true
  | .subcc _ _ _ => true
  | .andncc _ _ _ => true
  | .orncc _ _ _ => true
  | .xnorcc _ _ _ => true
  | .addxcc _ _ _ => true
  | .umulcc _ _ _ => true
  | .smulcc _ _ _ => true
  | .subxcc _ _ _ => true
  | .udivcc _ _ _ => false
  | .sdivcc _ _ _ => false
  | .sll _ _ _ => true
  | .srl _ _ _ => true
  | .sra _ _ _ => true
  | .ld _ _ _ => false
  | .st _ _ _ => false
  | .bn _ => true
  | .be _ => true
  | .ble _ => true
  | .bl _ => true
  | .bleu _ => true
  | .bcs _ => true
  | .bneg _ => true
  | .bvs _ => true
  | .ba _ => true
  | .bne _ => true
  | .bg _ => true
  | .bge _ => true
  | .bgu _ => true
  | .bcc _ => true
  | .bpos _ => true
  | .bvc _ => true
  | .call _ => true
  | .retl => false
  | .jmpl _ _ _ => false
  | .sethi _ _ => true

/-- The bytes an instruction stores to: ST's four, from its effective address (20_memory.md R55). -/
def storesTo (i : Instr) (s : State) (a : Nat) : Prop :=
  ∃ rd rs1 o, i = .st rd rs1 o ∧ (s.address rs1 o).toNat ≤ a ∧ a ≤ (s.address rs1 o).toNat + 3

/-! ## What two states share -/

/-- Every general register reads in t as in s. -/
def SameRegs (s t : State) : Prop := ∀ r, t.readReg r = s.readReg r

/-- t is s with v in x[rd], as registers read: x[0] stays zero and a write to it is discarded. -/
def WroteReg (s t : State) (rd : RegNum) (v : Word) : Prop :=
  ∀ r, t.readReg r = if r = 0#5 then 0x00000000#32 else if r = rd then v else s.readReg r

/-- Every byte of the memory and of the program memory reads in t as in s. -/
def SameMemories (s t : State) : Prop :=
  (∀ a, t.dataByte a = s.dataByte a) ∧ ∀ a, t.progByte a = s.progByte a

/-- The parameters of the run, the faulted condition and the draw counter are those of s. -/
def SameRest (s t : State) : Prop := t.params = s.params ∧ t.faulted = s.faulted ∧ t.draws = s.draws

/-- exec answers a next state in which x[rd] holds v, icc is f, pc has advanced by 4 and nothing else
has changed. -/
def CompletesWith (i : Instr) (s : State) (rd : RegNum) (v : Word) (f : Icc) : Prop :=
  ∃ t, exec i s = .next t ∧ WroteReg s t rd v ∧ t.icc = f ∧ t.pc = s.pc + 4#32 ∧
    SameMemories s t ∧ SameRest s t

/-- exec answers a next state in which pc is a and nothing else has changed. -/
def JumpsTo (i : Instr) (s : State) (a : Word) : Prop :=
  ∃ t, exec i s = .next t ∧ t.pc = a ∧ SameRegs s t ∧ t.icc = s.icc ∧ SameMemories s t ∧ SameRest s t

/-- An outcome that enters the faulted condition f and changes nothing else (60_exceptions.md R270). -/
def Raises (o : Host.Outcome State Fault Refusal) (s : State) (f : Fault) : Prop :=
  o = .next { s with faulted := some f }

/-! ## The invariant -/

/-- Whether the word that holds the byte at address a is in the regions. -/
def byteInRegions (regions : List Config.Region) (a : Nat) : Bool := holdsWordAt regions (a / 4 * 4)

/-- Both memories are in canonical form and hold bytes of MEM_REGIONS only, and pc is a multiple of 4
(10_state.md R27; 20_memory.md R53, R57). -/
structure State.Inv (s : State) : Prop where
  memCanonical : Memory.wf s.mem = true
  progCanonical : Memory.wf s.progMem = true
  pcAligned : isAligned s.pc = true
  memInRegions : ∀ c ∈ s.mem, byteInRegions s.params.memRegions c.1 = true
  progInRegions : ∀ c ∈ s.progMem, byteInRegions s.params.memRegions c.1 = true

/-! ## Safe runs -/

/-- A run raises no fault (60_exceptions.md R270: "a claim about a program must show that the program
raises none"). -/
def RunSafe (s : State) : Prop := ∀ k, (runFor k s).faulted = none

end Sys2Proof.Machine
end

