-- ==== Sys2Proof/Certificates/Slice0/Obligations.lean ====
section
/-! DEFINITION. The statements for the provers. "R<n>" is a numbered rule of spec/. -/

open Sys2Proof Sys2Proof.Machine

/-! ## Encoding -/

/-- A few words written out from the spec's encodings decode to the instructions they stand for
(R81 to R84, R92 to R97): one per format and family. -/
def Obligations.DecodesWordsOfTheSpec : Prop :=
  decode 0x86004002#32 = .instr (.add 3#5 1#5 (.reg 2#5)) ∧
  decode 0x86287F00#32 = .instr (.andn 3#5 1#5 (.imm 0x1F00#13)) ∧
  decode 0x86D84002#32 = .instr (.smulcc 3#5 1#5 (.reg 2#5)) ∧
  decode 0x87386010#32 = .instr (.sra 3#5 1#5 (.imm 16#13)) ∧
  decode 0xC6004142#32 = .instr (.ld 3#5 1#5 (.reg 2#5)) ∧
  decode 0xC6207FF8#32 = .instr (.st 3#5 1#5 (.imm 0x1FF8#13)) ∧
  decode 0x04BFFFFE#32 = .instr (.ble 0x3FFFFE#22) ∧
  decode 0x7FFFFFFF#32 = .instr (.call 0x3FFFFFFF#30) ∧
  decode 0x81C3E008#32 = .instr .retl ∧
  decode 0x81C3E00A#32 = .instr (.jmpl 0#5 15#5 (.imm 10#13)) ∧
  decode 0x07048D15#32 = .instr (.sethi 3#5 0x48D15#22)

/-- The decoder gives every well-formed instruction back from its word, with every operand at every
value, whatever fill the assembler writes in bits 12:5 (30_encoding.md). -/
def Obligations.DecodeOfEncodeIsTheInstruction : Prop :=
  ∀ (fill : BitVec 8) (i : Instr), i.wf = true → decode (encodeWith fill i) = .instr i

/-- What the decoder reads is well-formed: it never reads RETL's word as a JMPL. That RETL
is a constructor of its own is the model's choice (log 15). -/
def Obligations.DecodedInstructionsAreWellFormed : Prop :=
  ∀ (w : Word) (i : Instr), decode w = .instr i → i.wf = true

/-- The encoder gives an accepted word back: the whole word in formats 1 and 2 and in the constant form,
and every bit outside 12:5 in the register form (R80 to R86). -/
def Obligations.EncodeOfDecodeIsTheWord : Prop :=
  ∀ (w : Word) (i : Instr) (fill : BitVec 8), decode w = .instr i →
    ((opField w = 0b00#2 ∨ opField w = 0b01#2 ∨ iField w = true) → encodeWith fill i = w) ∧
    ∀ k, k < 5 ∨ 12 < k → (encodeWith fill i).getLsbD k = w.getLsbD k

/-- Bits 12:5 of a register-form word take no part in selecting the instruction or its operands (R86's
policy `ignore`). -/
def Obligations.FillBitsSelectNothing : Prop :=
  ∀ (w w' : Word) (i : Instr), (opField w = 0b10#2 ∨ opField w = 0b11#2) → iField w = false →
    (∀ k, k < 5 ∨ 12 < k → w'.getLsbD k = w.getLsbD k) → decode w = .instr i → decode w' = .instr i

/-- The decoder accepts exactly the words of the opcode table's rows, and the instruction it reads is the
one that a row matching the word names (R92 to R96, R99). -/
def Obligations.AcceptedWordsAreTheTableRows : Prop :=
  ∀ w : Word,
    (∀ i, decode w = .instr i → ∃ r ∈ opcodeRows, r.mnemonic = mnemonic i ∧ r.matchesWord w = true) ∧
    ((∃ r ∈ opcodeRows, r.matchesWord w = true) → ∃ i, decode w = .instr i)

/-- No word lies in two rows, but for RETL's word, which lies in JMPL's row too (30_encoding.md, opening
paragraph). -/
def Obligations.RowsDoNotOverlap : Prop :=
  ∀ (w : Word) (r q : OpcodeRow), r ∈ opcodeRows → q ∈ opcodeRows → r.matchesWord w = true →
    q.matchesWord w = true →
    r = q ∨ (r.mnemonic = "RETL" ∧ q.mnemonic = "JMPL") ∨ (r.mnemonic = "JMPL" ∧ q.mnemonic = "RETL")

/-- R95: executing a word that no row matches raises illegal_instruction with the word; the unassigned
words are those R95 lists, with the op3 values R92 lists as unassigned. -/
def Obligations.UnassignedWordsAreIllegal : Prop :=
  (∀ s : State, s.faulted = none → isAligned s.pc = true → s.inRegions s.pc = true →
    (∀ r ∈ opcodeRows, r.matchesWord s.fetchWord = false) →
    Raises (step s) s (.illegalInstruction s.fetchWord)) ∧
  ∀ w : Word, (∀ r ∈ opcodeRows, r.matchesWord w = false) ↔
    ((opField w = 0b00#2 ∧ op2Field w ≠ 0b010#3 ∧ op2Field w ≠ 0b100#3) ∨
     (opField w = 0b00#2 ∧ op2Field w = 0b010#3 ∧ w.getLsbD 29 = true) ∨
     (opField w = 0b10#2 ∧
       (op3Field w = 0x09#6 ∨ op3Field w = 0x0D#6 ∨ op3Field w = 0x19#6 ∨ op3Field w = 0x1D#6 ∨
        (0x20 ≤ (op3Field w).toNat ∧ (op3Field w).toNat ≤ 0x24) ∨
        (0x28 ≤ (op3Field w).toNat ∧ (op3Field w).toNat ≤ 0x37) ∨
        (0x39 ≤ (op3Field w).toNat ∧ (op3Field w).toNat ≤ 0x3F))) ∨
     (opField w = 0b11#2 ∧ op3Field w ≠ 0x00#6 ∧ op3Field w ≠ 0x04#6))

/-- R87: every branch row has 0 in bit 29; a word with op = 0b00, op2 = 0b010 and bit 29 set is no
instruction, and executing it raises illegal_instruction with the word. -/
def Obligations.AnnulledBranchIsIllegal : Prop :=
  (∀ r ∈ branchRows, r.mask.getLsbD 29 = true ∧ r.pattern.getLsbD 29 = false) ∧
  ∀ w : Word, opField w = 0b00#2 → op2Field w = 0b010#3 → w.getLsbD 29 = true →
    (∀ i, decode w ≠ .instr i) ∧
    ∀ s : State, s.faulted = none → isAligned s.pc = true → s.inRegions s.pc = true → s.fetchWord = w →
      Raises (step s) s (.illegalInstruction w)

/-! ## The step and the faults -/

/-- A step runs the decoded instruction: from a state that is not faulted, with pc aligned and its word
in MEM_REGIONS, step is exec of the instruction the word decodes to, at that state (R302). -/
def Obligations.StepRunsTheDecodedInstruction : Prop :=
  ∀ (s : State) (i : Instr), s.faulted = none → isAligned s.pc = true → s.inRegions s.pc = true →
    decode s.fetchWord = .instr i → step s = exec i s

/-- R273: the order of the checks of one step. Each clause has the checks before it pass. -/
def Obligations.ChecksComeInOrder : Prop :=
  ∀ s : State, s.faulted = none →
    (isAligned s.pc = false → Raises (step s) s (.memAddressNotAligned s.pc)) ∧
    (isAligned s.pc = true → s.inRegions s.pc = false → Raises (step s) s (.instructionAccess s.pc)) ∧
    (isAligned s.pc = true → s.inRegions s.pc = true →
      (∀ i, decode s.fetchWord ≠ .instr i) → Raises (step s) s (.illegalInstruction s.fetchWord)) ∧
    (isAligned s.pc = true → s.inRegions s.pc = true →
      ∀ (rd rs1 : RegNum) (o : Operand2),
        (decode s.fetchWord = .instr (.ld rd rs1 o) ∨ decode s.fetchWord = .instr (.st rd rs1 o) →
          (isAligned (s.address rs1 o) = false →
            Raises (step s) s (.memAddressNotAligned (s.address rs1 o))) ∧
          (isAligned (s.address rs1 o) = true → s.inRegions (s.address rs1 o) = false →
            Raises (step s) s (.dataAccess (s.address rs1 o)))) ∧
        (decode s.fetchWord = .instr (.jmpl rd rs1 o) → isAligned (s.address rs1 o) = false →
          Raises (step s) s (.memAddressNotAligned (s.address rs1 o))) ∧
        (decode s.fetchWord = .instr .retl → isAligned (s.readReg 15#5 + 8#32) = false →
          Raises (step s) s (.memAddressNotAligned (s.readReg 15#5 + 8#32))) ∧
        (decode s.fetchWord = .instr (.udiv rd rs1 o) ∨ decode s.fetchWord = .instr (.sdiv rd rs1 o) ∨
          decode s.fetchWord = .instr (.udivcc rd rs1 o) ∨ decode s.fetchWord = .instr (.sdivcc rd rs1 o) →
          s.operand2 o = 0x00000000#32 → Raises (step s) s (.divisionByZero s.pc)))

/-- The step has no successor from a faulted state, and from no other state does it stop; nothing is
refused (R270, R302). That the stop is the outcome `fault` with the recorded fault is the model's choice
(log 11). -/
def Obligations.StepStopsOnlyWhenFaulted : Prop :=
  ∀ s : State, (∀ f, step s = .fault f ↔ s.faulted = some f) ∧ ∀ r, step s ≠ .refused r

/-- Every state that is not faulted has a successor, whatever word it fetches (60_exceptions.md, opening:
"every 32-bit word and every state has a defined outcome"). -/
def Obligations.UnfaultedStatesHaveASuccessor : Prop :=
  ∀ s : State, s.faulted = none → ∃ t, step s = .next t

/-- Faults are precise: a step that raises one changes nothing but the faulted condition (R270; R274's
inference). -/
def Obligations.FaultingStepWritesNothingElse : Prop :=
  ∀ (s t : State) (f : Fault), s.faulted = none → step s = .next t → t.faulted = some f →
    t = { s with faulted := some f }

/-- Which instruction can fault and with what (R272's inference). -/
def Obligations.OnlyListedInstructionsFault : Prop :=
  (∀ (i : Instr) (s t : State), neverFaults i = true → exec i s = .next t → t.faulted = s.faulted) ∧
  ∀ (rd rs1 : RegNum) (o : Operand2) (s t : State) (f : Fault), s.faulted = none → t.faulted = some f →
    ((exec (.ld rd rs1 o) s = .next t ∨ exec (.st rd rs1 o) s = .next t) →
      f = .memAddressNotAligned (s.address rs1 o) ∨ f = .dataAccess (s.address rs1 o)) ∧
    (exec (.jmpl rd rs1 o) s = .next t → f = .memAddressNotAligned (s.address rs1 o)) ∧
    (exec .retl s = .next t → f = .memAddressNotAligned (s.readReg 15#5 + 8#32)) ∧
    ((exec (.udiv rd rs1 o) s = .next t ∨ exec (.sdiv rd rs1 o) s = .next t ∨
      exec (.udivcc rd rs1 o) s = .next t ∨ exec (.sdivcc rd rs1 o) s = .next t) →
      f = .divisionByZero s.pc)

/-! ## Frames over all instructions -/

/-- Only the fourteen cc instructions change icc (R28). -/
def Obligations.OnlyCcInstructionsChangeIcc : Prop :=
  ∀ (i : Instr) (s t : State), writesIcc i = false → exec i s = .next t → t.icc = s.icc

/-- What an instruction does not read of icc does not show: with other flags before, an instruction that
neither reads nor writes icc does the same and keeps those flags; ADDX and SUBX do so when c is the
same; a cc instruction that completes leaves the same state, those with a carry in when c is the same
(R28). That the overflow of SDIV and SDIVcc draws the same value in both is the model's choice (log 14). -/
def Obligations.FlagsNotReadDoNotShow : Prop :=
  ∀ (i : Instr) (s t : State) (f : Icc), iccRead i ≠ .allFlags →
    (iccRead i = .carryOnly → f.c = s.icc.c) → s.faulted = none → exec i s = .next t →
    (writesIcc i = false → exec i (s.setIcc f) = .next (t.setIcc f)) ∧
    (writesIcc i = true → t.faulted = none → exec i (s.setIcc f) = .next t)

/-- Every general register but the one R23's table names as written keeps its value. -/
def Obligations.OtherRegistersKeepTheirValue : Prop :=
  ∀ (i : Instr) (s t : State) (r : RegNum), exec i s = .next t → destReg i ≠ some r →
    t.readReg r = s.readReg r

/-- x[0] reads as zero in every state, and an instruction whose destination is x[0] changes no register
(R21's inference). -/
def Obligations.RegisterZeroIsHardwired : Prop :=
  (∀ s : State, s.readReg 0#5 = 0x00000000#32) ∧
  ∀ (i : Instr) (s t : State), destReg i = some 0#5 → exec i s = .next t → SameRegs s t

/-- Every byte keeps its value but the four that an ST stores to, at its effective address; the program
memory keeps all of its bytes (R55, R64). -/
def Obligations.OtherBytesKeepTheirValue : Prop :=
  ∀ (i : Instr) (s t : State), exec i s = .next t →
    (∀ a, ¬ storesTo i s a → t.dataByte a = s.dataByte a) ∧ ∀ a, t.progByte a = s.progByte a

/-- No step changes the parameters of the run (R310) or the program memory of MEM_ORG = split (R64).
That the parameters stand in State is the model's choice (log 10). -/
def Obligations.ParametersAndProgramMemoryAreFixed : Prop :=
  ∀ s t : State, step s = .next t → t.params = s.params ∧ t.progMem = s.progMem

/-! ## The invariant and reset -/

/-- A step keeps the invariant: both memories canonical and inside MEM_REGIONS, pc a multiple of 4.
The canonical form is the model's own (log 4). -/
def Obligations.StepKeepsTheInvariant : Prop :=
  ∀ s t : State, s.Inv → step s = .next t → t.Inv

/-- The machine right after reset meets the invariant. Its pc is the default the model takes (log 5). -/
def Obligations.ResetMeetsTheInvariant : Prop :=
  State.reset.Inv

/-- pc stays a multiple of 4 (R27's inference). -/
def Obligations.PcStaysAligned : Prop :=
  ∀ s t : State, isAligned s.pc = true → step s = .next t → isAligned t.pc = true

/-- The state at the first fetch (R35, R36), with the model's choices for what R35 leaves open. x[0] is
zero; x[1] to x[31] and icc are any values; pc is RESET_PC; no faulted condition; a word the host loaded
at an aligned address of MEM_REGIONS reads as loaded. The model's choices: State.reset takes RESET_PC's
default 0 (log 5); under split the text is what the fetch reads and the data what LD reads, each with
addresses of its own, which may be the same addresses (log 20); a byte that no entry covers is a free
value of its address alone, the same in every boot (log 3). -/
def Obligations.StateAtTheFirstFetch : Prop :=
  Config.defaultParams.resetPc = 0x00000000#32 ∧ State.reset.pc = 0x00000000#32 ∧
  State.reset.faulted = none ∧
  ∀ (p : Config.Params) (regs : Vector Word 31) (icc : Icc) (text data : Image),
    let s := State.boot p regs icc text data
    let distinct := fun (img : Image) => (img.map Prod.fst).Nodup
    let uncovered := fun (img : Image) (a : Nat) => ∀ e ∈ img, a < e.1.toNat ∨ e.1.toNat + 3 < a
    s.readReg 0#5 = 0x00000000#32 ∧
    (∀ r : RegNum, r ≠ 0#5 → s.readReg r = regs.get (regIndex r)) ∧
    s.pc = p.resetPc ∧ s.icc = icc ∧ s.faulted = none ∧ s.params = p ∧
    (p.memOrg = .unified →
      (distinct (text ++ data) → ∀ e ∈ text ++ data, imageEntryFits p e = true →
        s.loadWord e.1 = e.2 ∧ (s.setPc e.1).fetchWord = e.2) ∧
      (∀ a, uncovered (text ++ data) a → s.dataByte a = Config.unloadedByte a) ∧
      ∀ a, s.progByte a = Config.unloadedProgByte a) ∧
    (p.memOrg = .split →
      (distinct text → ∀ e ∈ text, imageEntryFits p e = true → (s.setPc e.1).fetchWord = e.2) ∧
      (distinct data → ∀ e ∈ data, imageEntryFits p e = true → s.loadWord e.1 = e.2) ∧
      (∀ a, uncovered text a → s.progByte a = Config.unloadedProgByte a) ∧
      ∀ a, uncovered data a → s.dataByte a = Config.unloadedByte a)

/-- Whatever the host chooses, a run from an aligned RESET_PC starts in the invariant (R310). That
misfitting image entries are left out is the model's choice (log 20). -/
def Obligations.BootMeetsTheInvariant : Prop :=
  ∀ (p : Config.Params) (regs : Vector Word 31) (icc : Icc) (text data : Image),
    isAligned p.resetPc = true → (State.boot p regs icc text data).Inv

/-! ## Operand 2 -/

/-- R9: every accepted word of format 3 has an operand 2, and it is x[insn[4:0]] when insn[13] = 0 and
the sign-extended insn[12:0] otherwise. -/
def Obligations.OperandTwoIsRegisterOrConstant : Prop :=
  ∀ (w : Word) (i : Instr) (s : State), (opField w = 0b10#2 ∨ opField w = 0b11#2) → decode w = .instr i →
    ∃ o, operand2Of i = some o ∧
      s.operand2 o = if w.getLsbD 13 = false then s.readReg (w.extractLsb' 0 5)
        else (w.extractLsb' 0 13).signExtend 32

/-! ## Logical instructions (R120 to R132) -/

/-- Each bit of the result depends on that bit of x[rs1] and operand 2 alone; icc and everything else
stay (R120 to R126). -/
def Obligations.LogicalResultsBitByBit : Prop :=
  ∀ (rd rs1 : RegNum) (o : Operand2) (s : State),
    let a := s.readReg rs1
    let b := s.operand2 o
    (∃ v : Word, (∀ k < 32, v.getLsbD k = (a.getLsbD k && b.getLsbD k)) ∧
      CompletesWith (.and rd rs1 o) s rd v s.icc) ∧
    (∃ v : Word, (∀ k < 32, v.getLsbD k = (a.getLsbD k || b.getLsbD k)) ∧
      CompletesWith (.or rd rs1 o) s rd v s.icc) ∧
    (∃ v : Word, (∀ k < 32, v.getLsbD k = (a.getLsbD k != b.getLsbD k)) ∧
      CompletesWith (.xor rd rs1 o) s rd v s.icc) ∧
    (∃ v : Word, (∀ k < 32, v.getLsbD k = (a.getLsbD k && !b.getLsbD k)) ∧
      CompletesWith (.andn rd rs1 o) s rd v s.icc) ∧
    (∃ v : Word, (∀ k < 32, v.getLsbD k = (a.getLsbD k || !b.getLsbD k)) ∧
      CompletesWith (.orn rd rs1 o) s rd v s.icc) ∧
    (∃ v : Word, (∀ k < 32, v.getLsbD k = (a.getLsbD k == b.getLsbD k)) ∧
      CompletesWith (.xnor rd rs1 o) s rd v s.icc)

/-- The cc forms write the same results and n = res[31], z = (res = 0), v = 0, c = 0 (R120, R127 to
R132). -/
def Obligations.LogicalCcResultsAndFlags : Prop :=
  ∀ (rd rs1 : RegNum) (o : Operand2) (s : State),
    let a := s.readReg rs1
    let b := s.operand2 o
    (∃ v : Word, (∀ k < 32, v.getLsbD k = (a.getLsbD k && b.getLsbD k)) ∧
      CompletesWith (.andcc rd rs1 o) s rd v ⟨v.getLsbD 31, v = 0x00000000#32, false, false⟩) ∧
    (∃ v : Word, (∀ k < 32, v.getLsbD k = (a.getLsbD k || b.getLsbD k)) ∧
      CompletesWith (.orcc rd rs1 o) s rd v ⟨v.getLsbD 31, v = 0x00000000#32, false, false⟩) ∧
    (∃ v : Word, (∀ k < 32, v.getLsbD k = (a.getLsbD k != b.getLsbD k)) ∧
      CompletesWith (.xorcc rd rs1 o) s rd v ⟨v.getLsbD 31, v = 0x00000000#32, false, false⟩) ∧
    (∃ v : Word, (∀ k < 32, v.getLsbD k = (a.getLsbD k && !b.getLsbD k)) ∧
      CompletesWith (.andncc rd rs1 o) s rd v ⟨v.getLsbD 31, v = 0x00000000#32, false, false⟩) ∧
    (∃ v : Word, (∀ k < 32, v.getLsbD k = (a.getLsbD k || !b.getLsbD k)) ∧
      CompletesWith (.orncc rd rs1 o) s rd v ⟨v.getLsbD 31, v = 0x00000000#32, false, false⟩) ∧
    (∃ v : Word, (∀ k < 32, v.getLsbD k = (a.getLsbD k == b.getLsbD k)) ∧
      CompletesWith (.xnorcc rd rs1 o) s rd v ⟨v.getLsbD 31, v = 0x00000000#32, false, false⟩)

/-! ## Add and subtract (R140 to R149) -/

/-- ADD, SUB, ADDX, SUBX: the exact integer sum or difference modulo 2^32, and no flag written (R140 to
R144). -/
def Obligations.AddSubResultsWrap : Prop :=
  ∀ (rd rs1 : RegNum) (o : Operand2) (s : State),
    let a : Int := (s.readReg rs1).toNat
    let b : Int := (s.operand2 o).toNat
    let c : Int := s.icc.c.toNat
    (∃ v : Word, (v.toNat : Int) = (a + b) % 2 ^ 32 ∧ CompletesWith (.add rd rs1 o) s rd v s.icc) ∧
    (∃ v : Word, (v.toNat : Int) = (a - b) % 2 ^ 32 ∧ CompletesWith (.sub rd rs1 o) s rd v s.icc) ∧
    (∃ v : Word, (v.toNat : Int) = (a + b + c) % 2 ^ 32 ∧ CompletesWith (.addx rd rs1 o) s rd v s.icc) ∧
    (∃ v : Word, (v.toNat : Int) = (a - b - c) % 2 ^ 32 ∧ CompletesWith (.subx rd rs1 o) s rd v s.icc)

/-- ADDcc and ADDXcc: n the sign, z the zero test, v exactly when the exact signed sum is out of range, c
exactly when the exact unsigned sum is 2^32 or more (R140, R145, R147). -/
def Obligations.AddCcFlagsAreExact : Prop :=
  ∀ (rd rs1 : RegNum) (o : Operand2) (s : State),
    let a := s.readReg rs1
    let b := s.operand2 o
    (∃ (v : Word) (f : Icc), CompletesWith (.addcc rd rs1 o) s rd v f ∧
      v.toNat = (a.toNat + b.toNat) % 2 ^ 32 ∧
      (f.n = true ↔ v.toInt < 0) ∧ (f.z = true ↔ v.toNat = 0) ∧
      (f.v = true ↔ a.toInt + b.toInt < -2 ^ 31 ∨ 2 ^ 31 ≤ a.toInt + b.toInt) ∧
      (f.c = true ↔ 2 ^ 32 ≤ a.toNat + b.toNat)) ∧
    (∃ (v : Word) (f : Icc), CompletesWith (.addxcc rd rs1 o) s rd v f ∧
      v.toNat = (a.toNat + b.toNat + s.icc.c.toNat) % 2 ^ 32 ∧
      (f.n = true ↔ v.toInt < 0) ∧ (f.z = true ↔ v.toNat = 0) ∧
      (f.v = true ↔ a.toInt + b.toInt + s.icc.c.toNat < -2 ^ 31 ∨
        2 ^ 31 ≤ a.toInt + b.toInt + s.icc.c.toNat) ∧
      (f.c = true ↔ 2 ^ 32 ≤ a.toNat + b.toNat + s.icc.c.toNat))

/-- SUBcc and SUBXcc: v exactly when the exact signed difference is out of range, c exactly when there
is a borrow (R140, R146, R148). -/
def Obligations.SubCcFlagsAreExact : Prop :=
  ∀ (rd rs1 : RegNum) (o : Operand2) (s : State),
    let a := s.readReg rs1
    let b := s.operand2 o
    (∃ (v : Word) (f : Icc), CompletesWith (.subcc rd rs1 o) s rd v f ∧
      (v.toNat : Int) = ((a.toNat : Int) - b.toNat) % 2 ^ 32 ∧
      (f.n = true ↔ v.toInt < 0) ∧ (f.z = true ↔ v.toNat = 0) ∧
      (f.v = true ↔ a.toInt - b.toInt < -2 ^ 31 ∨ 2 ^ 31 ≤ a.toInt - b.toInt) ∧
      (f.c = true ↔ a.toNat < b.toNat)) ∧
    (∃ (v : Word) (f : Icc), CompletesWith (.subxcc rd rs1 o) s rd v f ∧
      (v.toNat : Int) = ((a.toNat : Int) - b.toNat - s.icc.c.toNat) % 2 ^ 32 ∧
      (f.n = true ↔ v.toInt < 0) ∧ (f.z = true ↔ v.toNat = 0) ∧
      (f.v = true ↔ a.toInt - b.toInt - s.icc.c.toNat < -2 ^ 31 ∨
        2 ^ 31 ≤ a.toInt - b.toInt - s.icc.c.toNat) ∧
      (f.c = true ↔ a.toNat < b.toNat + s.icc.c.toNat))

/-- ADDcc on the low words then ADDX on the high words is the sum of two 64-bit numbers modulo 2^64
(R149's inference), where the first writes neither operand of the second. -/
def Obligations.AddccThenAddxAddsDoubleWords : Prop :=
  ∀ (dl dh al bl ah bh : RegNum) (s t u : State), dl ≠ 0#5 → dh ≠ 0#5 → dl ≠ dh → dl ≠ ah → dl ≠ bh →
    exec (.addcc dl al (.reg bl)) s = .next t → exec (.addx dh ah (.reg bh)) t = .next u →
    (u.readReg dh ++ u.readReg dl : BitVec 64) =
      (s.readReg ah ++ s.readReg al : BitVec 64) + (s.readReg bh ++ s.readReg bl : BitVec 64)

/-- SUBcc on the low words then SUBX on the high words is the difference of two 64-bit numbers modulo
2^64 (R149's inference). -/
def Obligations.SubccThenSubxSubtractsDoubleWords : Prop :=
  ∀ (dl dh al bl ah bh : RegNum) (s t u : State), dl ≠ 0#5 → dh ≠ 0#5 → dl ≠ dh → dl ≠ ah → dl ≠ bh →
    exec (.subcc dl al (.reg bl)) s = .next t → exec (.subx dh ah (.reg bh)) t = .next u →
    (u.readReg dh ++ u.readReg dl : BitVec 64) =
      (s.readReg ah ++ s.readReg al : BitVec 64) - (s.readReg bh ++ s.readReg bl : BitVec 64)

/-! ## Multiply and divide (R160 to R170) -/

/-- The multiplies give the exact product of the low sixteen bits of each operand, unsigned or signed,
and the cc forms n and z of it with v = c = 0 (R160 to R164). -/
def Obligations.MultipliesAreExactOnLowHalves : Prop :=
  ∀ (rd rs1 : RegNum) (o : Operand2) (s : State),
    let a := s.readReg rs1
    let b := s.operand2 o
    (∃ v : Word, v.toNat = (a.toNat % 2 ^ 16) * (b.toNat % 2 ^ 16) ∧
      CompletesWith (.umul rd rs1 o) s rd v s.icc ∧
      CompletesWith (.umulcc rd rs1 o) s rd v ⟨v.getLsbD 31, v = 0x00000000#32, false, false⟩) ∧
    (∃ v : Word, v.toInt = (a.setWidth 16).toInt * (b.setWidth 16).toInt ∧
      CompletesWith (.smul rd rs1 o) s rd v s.icc ∧
      CompletesWith (.smulcc rd rs1 o) s rd v ⟨v.getLsbD 31, v = 0x00000000#32, false, false⟩)

/-- UDIV and UDIVcc by a divisor other than 0 give the floor of the quotient of two 32-bit unsigned
numbers; the flags are n, z and v = c = 0 (R165, R166, R168). -/
def Obligations.UnsignedDivideGivesTheFloor : Prop :=
  ∀ (rd rs1 : RegNum) (o : Operand2) (s : State), s.operand2 o ≠ 0x00000000#32 →
    ∃ v : Word, v.toNat = (s.readReg rs1).toNat / (s.operand2 o).toNat ∧
      CompletesWith (.udiv rd rs1 o) s rd v s.icc ∧
      CompletesWith (.udivcc rd rs1 o) s rd v ⟨v.getLsbD 31, v = 0x00000000#32, false, false⟩

/-- SDIV and SDIVcc by a divisor other than 0 give the signed quotient rounded toward zero, but for -2^31
by -1; the flags are n, z and v = c = 0 (R165, R167, R169). -/
def Obligations.SignedDivideRoundsTowardZero : Prop :=
  ∀ (rd rs1 : RegNum) (o : Operand2) (s : State), s.operand2 o ≠ 0x00000000#32 →
    ¬ ((s.readReg rs1).toInt = -2 ^ 31 ∧ (s.operand2 o).toInt = -1) →
    ∃ v : Word, v.toInt = (s.readReg rs1).toInt.tdiv (s.operand2 o).toInt ∧
      CompletesWith (.sdiv rd rs1 o) s rd v s.icc ∧
      CompletesWith (.sdivcc rd rs1 o) s rd v ⟨v.getLsbD 31, v = 0x00000000#32, false, false⟩

/-- SDIV and SDIVcc of -2^31 by -1 complete: some value goes to x[rd], SDIV keeps icc, pc advances,
nothing else changes but the model's draw counter (R167, R169). Which value, and which flags SDIVcc
leaves, is free: nothing here says (log 14). -/
def Obligations.SignedDivideOverflowCompletes : Prop :=
  ∀ (rd rs1 : RegNum) (o : Operand2) (s : State), s.readReg rs1 = 0x80000000#32 →
    s.operand2 o = 0xFFFFFFFF#32 →
    (∃ (t : State) (v : Word), exec (.sdiv rd rs1 o) s = .next t ∧ WroteReg s t rd v ∧ t.icc = s.icc ∧
      t.pc = s.pc + 4#32 ∧ SameMemories s t ∧ t.params = s.params ∧ t.faulted = s.faulted) ∧
    (∃ (t : State) (v : Word), exec (.sdivcc rd rs1 o) s = .next t ∧ WroteReg s t rd v ∧
      t.pc = s.pc + 4#32 ∧ SameMemories s t ∧ t.params = s.params ∧ t.faulted = s.faulted)

/-- The four divides by zero raise division_by_zero with the pc and write nothing, whatever rd is
(R165). -/
def Obligations.DivideByZeroFaults : Prop :=
  ∀ (rd rs1 : RegNum) (o : Operand2) (s : State), s.operand2 o = 0x00000000#32 →
    ∀ i ∈ [Instr.udiv rd rs1 o, .sdiv rd rs1 o, .udivcc rd rs1 o, .sdivcc rd rs1 o],
      Raises (exec i s) s (.divisionByZero s.pc)

/-! ## Shifts (R180 to R183) -/

/-- The count is operand 2 modulo 32. SLL and SRL fill with zeros, SRA with the sign; SRL and SRA are the
unsigned and the signed division by 2^count rounded down; icc stays (R180 to R183). -/
def Obligations.ShiftResultsBitByBit : Prop :=
  ∀ (rd rs1 : RegNum) (o : Operand2) (s : State),
    let a := s.readReg rs1
    let n := (s.operand2 o).toNat % 32
    (∃ v : Word, (∀ k < 32, v.getLsbD k = (decide (n ≤ k) && a.getLsbD (k - n))) ∧
      CompletesWith (.sll rd rs1 o) s rd v s.icc) ∧
    (∃ v : Word, (∀ k < 32, v.getLsbD k = (decide (k + n < 32) && a.getLsbD (k + n))) ∧
      v.toNat = a.toNat / 2 ^ n ∧ CompletesWith (.srl rd rs1 o) s rd v s.icc) ∧
    (∃ v : Word, (∀ k < 32, v.getLsbD k = if k + n < 32 then a.getLsbD (k + n) else a.getLsbD 31) ∧
      v.toInt = a.toInt / 2 ^ n ∧ CompletesWith (.sra rd rs1 o) s rd v s.icc)

/-! ## Load and store (R190 to R193) -/

/-- LD at an aligned address in MEM_REGIONS: the word of the four bytes there, the byte at the address
its most significant, goes to x[rd]; the address is x[rs1] + op2 modulo 2^32; nothing else changes
(R190, R191, R54). -/
def Obligations.LoadReadsTheWord : Prop :=
  ∀ (rd rs1 : RegNum) (o : Operand2) (s : State) (a : Word), a = s.readReg rs1 + s.operand2 o →
    a.toNat % 4 = 0 → s.inRegions a = true →
    CompletesWith (.ld rd rs1 o) s rd
      (s.dataByte a.toNat ++ s.dataByte (a.toNat + 1) ++ s.dataByte (a.toNat + 2) ++ s.dataByte (a.toNat + 3))
      s.icc

/-- R55: ST at an aligned address in MEM_REGIONS: the four bytes there become x[rd][31:24], [23:16],
[15:8], [7:0]; no other byte, no register and no flag changes; pc advances. At an aligned address
outside MEM_REGIONS it raises data_access with the address. -/
def Obligations.StoreWritesTheWord : Prop :=
  ∀ (rd rs1 : RegNum) (o : Operand2) (s : State) (a v : Word), a = s.readReg rs1 + s.operand2 o →
    v = s.readReg rd → a.toNat % 4 = 0 →
    (s.inRegions a = true →
      ∃ t, exec (.st rd rs1 o) s = .next t ∧
        t.dataByte a.toNat = v.extractLsb' 24 8 ∧ t.dataByte (a.toNat + 1) = v.extractLsb' 16 8 ∧
        t.dataByte (a.toNat + 2) = v.extractLsb' 8 8 ∧ t.dataByte (a.toNat + 3) = v.extractLsb' 0 8 ∧
        (∀ k, k < a.toNat ∨ a.toNat + 3 < k → t.dataByte k = s.dataByte k) ∧
        (∀ k, t.progByte k = s.progByte k) ∧
        SameRegs s t ∧ t.icc = s.icc ∧ t.pc = s.pc + 4#32 ∧ SameRest s t) ∧
    (s.inRegions a = false → Raises (exec (.st rd rs1 o) s) s (.dataAccess a))

/-- R52: LD and ST at an address that is not a multiple of 4 raise mem_address_not_aligned with the
address; nothing is read, nothing is written, pc does not advance. -/
def Obligations.MisalignedDataAccessFaults : Prop :=
  ∀ (rd rs1 : RegNum) (o : Operand2) (s : State), (s.readReg rs1 + s.operand2 o).toNat % 4 ≠ 0 →
    ∀ i ∈ [Instr.ld rd rs1 o, .st rd rs1 o],
      Raises (exec i s) s (.memAddressNotAligned (s.readReg rs1 + s.operand2 o))

/-- LD and ST at an aligned address outside MEM_REGIONS raise data_access with the address (R54, R55,
R57). -/
def Obligations.DataAccessOutsideRegionsFaults : Prop :=
  ∀ (rd rs1 : RegNum) (o : Operand2) (s : State), (s.readReg rs1 + s.operand2 o).toNat % 4 = 0 →
    s.inRegions (s.readReg rs1 + s.operand2 o) = false →
    ∀ i ∈ [Instr.ld rd rs1 o, .st rd rs1 o],
      Raises (exec i s) s (.dataAccess (s.readReg rs1 + s.operand2 o))

/-- After an ST that does not fault, an LD of the same address gives the value stored, every value
unchanged (R193's inference (1), (5)). -/
def Obligations.LoadAfterStoreGivesTheValue : Prop :=
  ∀ (rd rs1 rk rj : RegNum) (o p : Operand2) (s t : State), s.faulted = none →
    exec (.st rd rs1 o) s = .next t → t.faulted = none → t.address rj p = s.address rs1 o →
    CompletesWith (.ld rk rj p) t rk (s.readReg rd) t.icc

/-- Two stores to different words give the same memory in either order; of two stores to one word the
later stands (R193's inference (4)). -/
def Obligations.StoresToDifferentWordsCommute : Prop :=
  ∀ (r1 b1 r2 b2 : RegNum) (o1 o2 : Operand2) (s : State),
    isAligned (s.address b1 o1) = true → isAligned (s.address b2 o2) = true →
    s.inRegions (s.address b1 o1) = true → s.inRegions (s.address b2 o2) = true →
    ∃ t t' u u', exec (.st r1 b1 o1) s = .next t ∧ exec (.st r2 b2 o2) t = .next t' ∧
      exec (.st r2 b2 o2) s = .next u ∧ exec (.st r1 b1 o1) u = .next u' ∧
      (s.address b1 o1 ≠ s.address b2 o2 → ∀ a, t'.dataByte a = u'.dataByte a) ∧
      (s.address b1 o1 = s.address b2 o2 → ∀ a, t'.dataByte a = u.dataByte a)

/-- A stored word is the word fetched there next under MEM_ORG = unified, at once; under split a store
never changes what is fetched (R62). -/
def Obligations.FetchSeesAStoreWhenUnified : Prop :=
  ∀ (rd rs1 : RegNum) (o : Operand2) (s t : State), s.faulted = none →
    exec (.st rd rs1 o) s = .next t → t.faulted = none →
    (s.params.memOrg = .unified → (t.setPc (s.address rs1 o)).fetchWord = s.readReg rd) ∧
    (s.params.memOrg = .split → ∀ a : Word, (t.setPc a).fetchWord = (s.setPc a).fetchWord)

/-! ## Branches (R200 to R218) -/

/-- Each branch goes to pc + 4 * disp22 when its condition holds and to pc + 4 when it does not, and
changes nothing else (R200 to R217). -/
def Obligations.BranchesFollowTheirConditions : Prop :=
  ∀ (d : BitVec 22) (s : State),
    let go := fun (taken : Bool) => if taken then s.pc + 4#32 * d.signExtend 32 else s.pc + 4#32
    let n := s.icc.n
    let z := s.icc.z
    let v := s.icc.v
    let c := s.icc.c
    JumpsTo (.bn d) s (go false) ∧ JumpsTo (.be d) s (go z) ∧
    JumpsTo (.ble d) s (go (z || (n != v))) ∧ JumpsTo (.bl d) s (go (n != v)) ∧
    JumpsTo (.bleu d) s (go (c || z)) ∧ JumpsTo (.bcs d) s (go c) ∧
    JumpsTo (.bneg d) s (go n) ∧ JumpsTo (.bvs d) s (go v) ∧
    JumpsTo (.ba d) s (go true) ∧ JumpsTo (.bne d) s (go (!z)) ∧
    JumpsTo (.bg d) s (go (!z && (n == v))) ∧ JumpsTo (.bge d) s (go (n == v)) ∧
    JumpsTo (.bgu d) s (go (!c && !z)) ∧ JumpsTo (.bcc d) s (go (!c)) ∧
    JumpsTo (.bpos d) s (go (!n)) ∧ JumpsTo (.bvc d) s (go (!v))

/-- The condition of cond value k + 8 is the negation of that of k: bit 3 of cond inverts the test its
low bits select (R201's inference). -/
def Obligations.CondBitThreeNegatesTheTest : Prop :=
  ∀ (cond : BitVec 4) (d : BitVec 22) (s : State),
    let f := s.icc
    let base := [false, f.z, f.z || (f.n ^^ f.v), f.n ^^ f.v, f.c || f.z, f.c, f.n, f.v].getD
      (cond.toNat % 8) false
    exec (branchOfCond cond d) s =
      .next (s.setPc (if base ^^ cond.getLsbD 3 then branchTarget s.pc d else s.pc + 4#32))

/-- After SUBcc with rd = 0 (CMP) of a and b the branches compare a with b, as equal, signed and unsigned
numbers, also when the subtraction overflows (R30's and R218's inferences). -/
def Obligations.BranchesAfterCompareCompare : Prop :=
  ∀ (rs1 : RegNum) (o : Operand2) (s : State),
    let a := s.readReg rs1
    let b := s.operand2 o
    ∃ t, exec (.subcc 0#5 rs1 o) s = .next t ∧ SameRegs s t ∧ SameMemories s t ∧ t.pc = s.pc + 4#32 ∧
      ∀ d : BitVec 22,
        let goIf := fun (i : Instr) (p : Bool) =>
          JumpsTo i t (if p then t.pc + 4#32 * d.signExtend 32 else t.pc + 4#32)
        goIf (.be d) (a = b) ∧ goIf (.bne d) (a ≠ b) ∧
        goIf (.bl d) (a.toInt < b.toInt) ∧ goIf (.ble d) (a.toInt ≤ b.toInt) ∧
        goIf (.bg d) (a.toInt > b.toInt) ∧ goIf (.bge d) (a.toInt ≥ b.toInt) ∧
        goIf (.bcs d) (a.toNat < b.toNat) ∧ goIf (.bleu d) (a.toNat ≤ b.toNat) ∧
        goIf (.bgu d) (a.toNat > b.toNat) ∧ goIf (.bcc d) (a.toNat ≥ b.toNat)

/-- The target of a taken branch is pc + 4 * disp22 with disp22 signed, modulo 2^32 (R89), and the
displacement an assembler computes reaches its target when the distance is a multiple of 4 from
-8388608 to 8388604 bytes (R200). -/
def Obligations.BranchTargetsAreRelativeToTheBranch : Prop :=
  (∀ (pc : Word) (d : BitVec 22), ((branchTarget pc d).toNat : Int) = (pc.toNat + 4 * d.toInt) % 2 ^ 32) ∧
  ∀ pc target : Word, (target - pc).toInt % 4 = 0 → -8388608 ≤ (target - pc).toInt →
    (target - pc).toInt ≤ 8388604 → branchTarget pc (branchDisp pc target) = target

/-- A step of BA with displacement 0 gives the same state again: the self-loop of R306 (b). -/
def Obligations.BranchAlwaysZeroLoopsForEver : Prop :=
  ∀ s : State, s.faulted = none → isAligned s.pc = true → s.inRegions s.pc = true →
    s.fetchWord = 0x10800000#32 → step s = .next s ∧ selfLoops s = true

/-! ## CALL, JMPL and RETL (R230 to R234) -/

/-- R230: the word of CALL; x[15] gets the address of the CALL and pc goes to pc + 4 * disp30 modulo
2^32; no flag changes and the CALL does not fault; every aligned target is reached by the displacement
an assembler computes; a target outside memory faults at the next fetch, after x[15] and pc have been
written. -/
def Obligations.CallLinksAndJumps : Prop :=
  (∀ d : BitVec 30, encode (.call d) = (0x40000000#32 ||| d.setWidth 32)) ∧
  (∀ (d : BitVec 30) (s : State), ∃ t, exec (.call d) s = .next t ∧ WroteReg s t 15#5 s.pc ∧
    t.pc.toNat = (s.pc.toNat + 4 * d.toNat) % 2 ^ 32 ∧ t.icc = s.icc ∧ SameMemories s t ∧ SameRest s t ∧
    (isAligned s.pc = true → s.faulted = none → s.inRegions t.pc = false →
      Raises (step t) t (.instructionAccess t.pc))) ∧
  ∀ pc target : Word, isAligned pc = true → isAligned target = true →
    ∀ s t : State, s.pc = pc → exec (.call (callDisp pc target)) s = .next t → t.pc = target

/-- JMPL to an aligned target: x[rd] gets the address of the JMPL and pc the target, computed from the
registers as they were, also when rd is rs1 or rs2 (R231, R24). RETL with an aligned target goes to
x[15] + 8 and changes nothing else (R232). -/
def Obligations.JmplAndRetlJump : Prop :=
  (∀ (rd rs1 : RegNum) (o : Operand2) (s : State), (s.readReg rs1 + s.operand2 o).toNat % 4 = 0 →
    ∃ t, exec (.jmpl rd rs1 o) s = .next t ∧ t.pc = s.readReg rs1 + s.operand2 o ∧ WroteReg s t rd s.pc ∧
      t.icc = s.icc ∧ SameMemories s t ∧ SameRest s t) ∧
  ∀ s : State, (s.readReg 15#5 + 8#32).toNat % 4 = 0 → JumpsTo .retl s (s.readReg 15#5 + 8#32)

/-- R233: JMPL and RETL with a target that is not a multiple of 4 raise mem_address_not_aligned with the
target before any write; it is the only check they make, and a fault of their own fetch comes first. -/
def Obligations.MisalignedJumpTargetFaults : Prop :=
  (∀ (rd rs1 : RegNum) (o : Operand2) (s : State),
    ((s.readReg rs1 + s.operand2 o).toNat % 4 ≠ 0 →
      Raises (exec (.jmpl rd rs1 o) s) s (.memAddressNotAligned (s.readReg rs1 + s.operand2 o))) ∧
    ((s.readReg rs1 + s.operand2 o).toNat % 4 = 0 →
      ∃ t, exec (.jmpl rd rs1 o) s = .next t ∧ t.faulted = s.faulted)) ∧
  (∀ s : State,
    ((s.readReg 15#5 + 8#32).toNat % 4 ≠ 0 →
      Raises (exec .retl s) s (.memAddressNotAligned (s.readReg 15#5 + 8#32))) ∧
    ((s.readReg 15#5 + 8#32).toNat % 4 = 0 → ∃ t, exec .retl s = .next t ∧ t.faulted = s.faulted)) ∧
  ∀ (s : State) (f : Fault), s.faulted = none → fetchInstr s = .raises f → Raises (step s) s f

/-- A routine reached by CALL that keeps x[15] returns by RETL to the address of the CALL plus 8
(R232's and R234's account of the convention). -/
def Obligations.RetlReturnsBehindTheCall : Prop :=
  ∀ (d : BitVec 30) (s t u : State), isAligned s.pc = true → exec (.call d) s = .next t →
    u.readReg 15#5 = t.readReg 15#5 → JumpsTo .retl u (s.pc + 8#32)

/-! ## SETHI (R240, R241) -/

/-- R240: the word of SETHI; bits 31:10 of x[rd] get the constant and bits 9:0 become zero, whatever the
register held; rd = 0 writes nothing; no flag is written and it does not fault. -/
def Obligations.SethiLoadsTheHighPart : Prop :=
  ∀ (rd : RegNum) (k : BitVec 22),
    encode (.sethi rd k) = (0x01000000#32 ||| (rd.setWidth 32 <<< 25) ||| k.setWidth 32) ∧
    decode (encode (.sethi rd k)) = .instr (.sethi rd k) ∧
    ∀ s : State, ∃ v : Word, v.toNat = k.toNat * 2 ^ 10 ∧ CompletesWith (.sethi rd k) s rd v s.icc

/-- SETHI of bits 31:10 then OR of bits 9:0 leaves any 32-bit constant in any register but x[0] (R241's
inference). -/
def Obligations.SethiThenOrLoadsAnyConstant : Prop :=
  ∀ (rd : RegNum) (k : Word) (s t u : State), rd ≠ 0#5 → exec (.sethi rd (k.extractLsb' 10 22)) s = .next t →
    exec (.or rd rd (.imm ((k.extractLsb' 0 10).setWidth 13))) t = .next u → u.readReg rd = k

/-! ## Synonyms (R245 to R262) -/

/-- The synonyms that compute do what their comments say: NOP changes only pc, MOV copies operand 2, NOT
complements, NEG and INC and DEC are 0 - x, x + 1 and x - 1 modulo 2^32, CLR clears; CMP and TST write
flags only (R246 to R254). -/
def Obligations.SynonymsDoWhatTheirCommentsSay : Prop :=
  ∀ (rd r : RegNum) (o : Operand2) (s : State),
    JumpsTo (Synonym.expand .nop) s (s.pc + 4#32) ∧
    CompletesWith (Synonym.expand (.mov rd o)) s rd (s.operand2 o) s.icc ∧
    CompletesWith (Synonym.expand (.not rd r)) s rd (~~~ s.readReg r) s.icc ∧
    CompletesWith (Synonym.expand (.neg rd r)) s rd (- s.readReg r) s.icc ∧
    CompletesWith (Synonym.expand (.inc rd r)) s rd (s.readReg r + 1#32) s.icc ∧
    CompletesWith (Synonym.expand (.dec rd r)) s rd (s.readReg r - 1#32) s.icc ∧
    CompletesWith (Synonym.expand (.clr rd)) s rd 0x00000000#32 s.icc ∧
    CompletesWith (Synonym.expand (.tst r)) s 0#5 0x00000000#32
      ⟨(s.readReg r).getLsbD 31, s.readReg r = 0x00000000#32, false, false⟩ ∧
    ∃ t, exec (Synonym.expand (.cmp r o)) s = .next t ∧ SameRegs s t ∧ SameMemories s t ∧ SameRest s t ∧
      t.pc = s.pc + 4#32 ∧ (t.icc.z = true ↔ s.readReg r = s.operand2 o) ∧
      (t.icc.c = true ↔ (s.readReg r).toNat < (s.operand2 o).toNat)

/-- The words of the synonyms (R246 to R262): the fixed ones, and the branch words for every
displacement. -/
def Obligations.SynonymWords : Prop :=
  encode (Synonym.expand .nop) = 0x80000000#32 ∧
  encode (Synonym.expand (.mov 3#5 (.imm 0x1FFB#13))) = 0x86003FFB#32 ∧
  encode (Synonym.expand (.cmp 1#5 (.imm 10#13))) = 0x80A0600A#32 ∧
  encode (Synonym.expand (.tst 2#5)) = 0x80900002#32 ∧
  encode (Synonym.expand (.not 3#5 1#5)) = 0x86384000#32 ∧
  encode (Synonym.expand (.neg 3#5 2#5)) = 0x86200002#32 ∧
  encode (Synonym.expand (.inc 3#5 1#5)) = 0x86006001#32 ∧
  encode (Synonym.expand (.dec 3#5 1#5)) = 0x86206001#32 ∧
  encode (Synonym.expand (.clr 3#5)) = 0x86100000#32 ∧
  ∀ d : BitVec 22,
    encode (Synonym.expand (.bnS d)) = (0x0C800000#32 ||| d.setWidth 32) ∧
    encode (Synonym.expand (.bnC d)) = (0x1C800000#32 ||| d.setWidth 32) ∧
    encode (Synonym.expand (.bzS d)) = (0x02800000#32 ||| d.setWidth 32) ∧
    encode (Synonym.expand (.bzC d)) = (0x12800000#32 ||| d.setWidth 32) ∧
    encode (Synonym.expand (.bcS d)) = (0x0A800000#32 ||| d.setWidth 32) ∧
    encode (Synonym.expand (.bcC d)) = (0x1A800000#32 ||| d.setWidth 32) ∧
    encode (Synonym.expand (.bvS d)) = (0x0E800000#32 ||| d.setWidth 32) ∧
    encode (Synonym.expand (.bvC d)) = (0x1E800000#32 ||| d.setWidth 32)
end

