-- ==== Sys2Proof/Laws/Decode.lean ====
section
/-! SUPPORT. What each field of an encoded word is (30_encoding.md R81 to R84), and the byte order's
round trip (20_memory.md R51). -/

namespace Sys2Proof

/-! ## Format 3 (R82) -/

section
variable (op : BitVec 2) (op3 : BitVec 6) (fill : BitVec 8) (rd rs1 : RegNum) (o : Operand2)

@[simp] theorem opField_format3 : opField (format3 op op3 fill rd rs1 o) = op := by
  apply BitVec.eq_of_getLsbD_eq; intro i hi
  interval_cases i <;> (simp only [opField, format3, BitVec.getLsbD_extractLsb', BitVec.getLsbD_append]; simp)

@[simp] theorem rdField_format3 : rdField (format3 op op3 fill rd rs1 o) = rd := by
  apply BitVec.eq_of_getLsbD_eq; intro i hi
  interval_cases i <;> (simp only [rdField, format3, BitVec.getLsbD_extractLsb', BitVec.getLsbD_append]; simp)

@[simp] theorem op3Field_format3 : op3Field (format3 op op3 fill rd rs1 o) = op3 := by
  apply BitVec.eq_of_getLsbD_eq; intro i hi
  interval_cases i <;> (simp only [op3Field, format3, BitVec.getLsbD_extractLsb', BitVec.getLsbD_append]; simp)

@[simp] theorem rs1Field_format3 : rs1Field (format3 op op3 fill rd rs1 o) = rs1 := by
  apply BitVec.eq_of_getLsbD_eq; intro i hi
  interval_cases i <;> (simp only [rs1Field, format3, BitVec.getLsbD_extractLsb', BitVec.getLsbD_append]; simp)

/-- Operand 2 comes back from the word whatever the fill (R85, R86). -/
@[simp] theorem operand2Field_format3 : operand2Field (format3 op op3 fill rd rs1 o) = o := by
  cases o with
  | reg rs2 =>
    have hi : iField (format3 op op3 fill rd rs1 (.reg rs2)) = false := by
      simp only [iField, format3, encodeOperand2, BitVec.getLsbD_append]; simp
    have hr : rs2Field (format3 op op3 fill rd rs1 (.reg rs2)) = rs2 := by
      apply BitVec.eq_of_getLsbD_eq; intro i h
      interval_cases i <;> (simp only [rs2Field, format3, encodeOperand2, BitVec.getLsbD_extractLsb', BitVec.getLsbD_append]; simp)
    simp [operand2Field, hi, hr]
  | imm k =>
    have hi : iField (format3 op op3 fill rd rs1 (.imm k)) = true := by
      simp only [iField, format3, encodeOperand2, BitVec.getLsbD_append]; simp
    have hr : simm13Field (format3 op op3 fill rd rs1 (.imm k)) = k := by
      apply BitVec.eq_of_getLsbD_eq; intro i h
      interval_cases i <;> (simp only [simm13Field, format3, encodeOperand2, BitVec.getLsbD_extractLsb', BitVec.getLsbD_append]; simp)
    simp [operand2Field, hi, hr]

end

/-! ## Formats 1 and 2 (R81, R84) -/

@[simp] theorem opField_branchWord (c : BitVec 4) (d : BitVec 22) : opField (branchWord c d) = 0b00#2 := by
  apply BitVec.eq_of_getLsbD_eq; intro i hi
  interval_cases i <;> (simp only [opField, branchWord, BitVec.getLsbD_extractLsb', BitVec.getLsbD_append]; simp)

@[simp] theorem op2Field_branchWord (c : BitVec 4) (d : BitVec 22) : op2Field (branchWord c d) = 0b010#3 := by
  apply BitVec.eq_of_getLsbD_eq; intro i hi
  interval_cases i <;> (simp only [op2Field, branchWord, BitVec.getLsbD_extractLsb', BitVec.getLsbD_append]; simp)

@[simp] theorem annulField_branchWord (c : BitVec 4) (d : BitVec 22) : annulField (branchWord c d) = false := by
  simp only [annulField, branchWord, BitVec.getLsbD_append]; simp

@[simp] theorem condField_branchWord (c : BitVec 4) (d : BitVec 22) : condField (branchWord c d) = c := by
  apply BitVec.eq_of_getLsbD_eq; intro i hi
  interval_cases i <;> (simp only [condField, branchWord, BitVec.getLsbD_extractLsb', BitVec.getLsbD_append]; simp)

@[simp] theorem low22Field_branchWord (c : BitVec 4) (d : BitVec 22) : low22Field (branchWord c d) = d := by
  apply BitVec.eq_of_getLsbD_eq; intro i hi
  interval_cases i <;> (simp only [low22Field, branchWord, BitVec.getLsbD_extractLsb', BitVec.getLsbD_append]; simp)

/-- A SETHI word's fields (R84). -/
theorem fields_sethiWord (rd : RegNum) (k : BitVec 22) :
    opField (0b00#2 ++ rd ++ 0b100#3 ++ k) = 0b00#2 ∧ op2Field (0b00#2 ++ rd ++ 0b100#3 ++ k) = 0b100#3 ∧
      rdField (0b00#2 ++ rd ++ 0b100#3 ++ k) = rd ∧ low22Field (0b00#2 ++ rd ++ 0b100#3 ++ k) = k := by
  refine ⟨?_, ?_, ?_, ?_⟩ <;> apply BitVec.eq_of_getLsbD_eq <;> intro i hi
  · interval_cases i <;> (simp only [opField, BitVec.getLsbD_extractLsb', BitVec.getLsbD_append]; simp)
  · interval_cases i <;> (simp only [op2Field, BitVec.getLsbD_extractLsb', BitVec.getLsbD_append]; simp)
  · interval_cases i <;> (simp only [rdField, BitVec.getLsbD_extractLsb', BitVec.getLsbD_append]; simp)
  · interval_cases i <;> (simp only [low22Field, BitVec.getLsbD_extractLsb', BitVec.getLsbD_append]; simp)

/-- A CALL word's fields (R81). -/
theorem fields_callWord (d : BitVec 30) :
    opField (0b01#2 ++ d) = 0b01#2 ∧ disp30Field (0b01#2 ++ d) = d := by
  refine ⟨?_, ?_⟩ <;> apply BitVec.eq_of_getLsbD_eq <;> intro i hi
  · interval_cases i <;> (simp only [opField, BitVec.getLsbD_extractLsb', BitVec.getLsbD_append]; simp)
  · interval_cases i <;> (simp only [disp30Field, BitVec.getLsbD_extractLsb', BitVec.getLsbD_append]; simp)

/-! ## Masks and patterns (R92 to R96) -/

/-- A format 3 word lies in the row of its op and op3, whatever its other fields hold. -/
theorem format3_masked (op : BitVec 2) (op3 : BitVec 6) (fill : BitVec 8) (rd rs1 : RegNum) (o : Operand2) :
    format3 op op3 fill rd rs1 o &&& 0xC1F80000#32 =
      (op.setWidth 32 <<< 30) ||| (op3.setWidth 32 <<< 19) := by
  apply BitVec.eq_of_getLsbD_eq; intro i hi
  interval_cases i <;> (simp only [format3, BitVec.getLsbD_and, BitVec.getLsbD_or, BitVec.getLsbD_append]; simp)

/-- An arithmetic word lies in the row of its op3 (R92). -/
theorem arithRow_matches (name : String) (op3 : BitVec 6) (rd rs1 : RegNum) (o : Operand2) :
    (arithRow name op3).matchesWord (arithWord op3 rd rs1 o) = true := by
  refine decide_eq_true ?_
  simp only [arithRow, arithWord, format3_masked]
  rfl

/-- A branch word lies in the row of its cond (R94). -/
theorem branchRow_matches (name : String) (c : BitVec 4) (d : BitVec 22) :
    (branchRow name c).matchesWord (branchWord c d) = true := by
  refine decide_eq_true ?_
  simp only [branchRow]
  apply BitVec.eq_of_getLsbD_eq; intro i hi
  interval_cases i <;> (simp only [branchWord, BitVec.getLsbD_and, BitVec.getLsbD_or, BitVec.getLsbD_append]; simp)

end Sys2Proof
end

