-- ==== Sys2Proof/Laws/State.lean ====
section
/-! SUPPORT. What each update of the state does to each field, and what each reader sees after it. No
later proof unfolds a record update. -/

namespace Sys2Proof.Machine

variable (s : State)

@[simp] theorem setPc_regs (a : Word) : (s.setPc a).regs = s.regs := rfl
@[simp] theorem setPc_pc (a : Word) : (s.setPc a).pc = a := rfl
@[simp] theorem setPc_icc (a : Word) : (s.setPc a).icc = s.icc := rfl
@[simp] theorem setPc_mem (a : Word) : (s.setPc a).mem = s.mem := rfl
@[simp] theorem setPc_progMem (a : Word) : (s.setPc a).progMem = s.progMem := rfl
@[simp] theorem setPc_params (a : Word) : (s.setPc a).params = s.params := rfl
@[simp] theorem setPc_faulted (a : Word) : (s.setPc a).faulted = s.faulted := rfl
@[simp] theorem setPc_draws (a : Word) : (s.setPc a).draws = s.draws := rfl

@[simp] theorem advance_regs : (s.advance).regs = s.regs := rfl
@[simp] theorem advance_pc : (s.advance).pc = s.pc + 4#32 := rfl
@[simp] theorem advance_icc : (s.advance).icc = s.icc := rfl
@[simp] theorem advance_mem : (s.advance).mem = s.mem := rfl
@[simp] theorem advance_progMem : (s.advance).progMem = s.progMem := rfl
@[simp] theorem advance_params : (s.advance).params = s.params := rfl
@[simp] theorem advance_faulted : (s.advance).faulted = s.faulted := rfl
@[simp] theorem advance_draws : (s.advance).draws = s.draws := rfl

@[simp] theorem setIcc_regs (f : Icc) : (s.setIcc f).regs = s.regs := rfl
@[simp] theorem setIcc_pc (f : Icc) : (s.setIcc f).pc = s.pc := rfl
@[simp] theorem setIcc_icc (f : Icc) : (s.setIcc f).icc = f := rfl
@[simp] theorem setIcc_mem (f : Icc) : (s.setIcc f).mem = s.mem := rfl
@[simp] theorem setIcc_progMem (f : Icc) : (s.setIcc f).progMem = s.progMem := rfl
@[simp] theorem setIcc_params (f : Icc) : (s.setIcc f).params = s.params := rfl
@[simp] theorem setIcc_faulted (f : Icc) : (s.setIcc f).faulted = s.faulted := rfl
@[simp] theorem setIcc_draws (f : Icc) : (s.setIcc f).draws = s.draws := rfl

@[simp] theorem countDraw_regs : (s.countDraw).regs = s.regs := rfl
@[simp] theorem countDraw_pc : (s.countDraw).pc = s.pc := rfl
@[simp] theorem countDraw_icc : (s.countDraw).icc = s.icc := rfl
@[simp] theorem countDraw_mem : (s.countDraw).mem = s.mem := rfl
@[simp] theorem countDraw_progMem : (s.countDraw).progMem = s.progMem := rfl
@[simp] theorem countDraw_params : (s.countDraw).params = s.params := rfl
@[simp] theorem countDraw_faulted : (s.countDraw).faulted = s.faulted := rfl
@[simp] theorem countDraw_draws : (s.countDraw).draws = s.draws + 1 := rfl

@[simp] theorem storeWord_regs (a v : Word) : (s.storeWord a v).regs = s.regs := rfl
@[simp] theorem storeWord_pc (a v : Word) : (s.storeWord a v).pc = s.pc := rfl
@[simp] theorem storeWord_icc (a v : Word) : (s.storeWord a v).icc = s.icc := rfl
@[simp] theorem storeWord_mem (a v : Word) : (s.storeWord a v).mem = Memory.writeWord s.mem a.toNat v := rfl
@[simp] theorem storeWord_progMem (a v : Word) : (s.storeWord a v).progMem = s.progMem := rfl
@[simp] theorem storeWord_params (a v : Word) : (s.storeWord a v).params = s.params := rfl
@[simp] theorem storeWord_faulted (a v : Word) : (s.storeWord a v).faulted = s.faulted := rfl
@[simp] theorem storeWord_draws (a v : Word) : (s.storeWord a v).draws = s.draws := rfl

@[simp] theorem writeReg_pc (r : RegNum) (v : Word) : (s.writeReg r v).pc = s.pc := by
  unfold State.writeReg; split <;> rfl
@[simp] theorem writeReg_icc (r : RegNum) (v : Word) : (s.writeReg r v).icc = s.icc := by
  unfold State.writeReg; split <;> rfl
@[simp] theorem writeReg_mem (r : RegNum) (v : Word) : (s.writeReg r v).mem = s.mem := by
  unfold State.writeReg; split <;> rfl
@[simp] theorem writeReg_progMem (r : RegNum) (v : Word) : (s.writeReg r v).progMem = s.progMem := by
  unfold State.writeReg; split <;> rfl
@[simp] theorem writeReg_params (r : RegNum) (v : Word) : (s.writeReg r v).params = s.params := by
  unfold State.writeReg; split <;> rfl
@[simp] theorem writeReg_faulted (r : RegNum) (v : Word) : (s.writeReg r v).faulted = s.faulted := by
  unfold State.writeReg; split <;> rfl
@[simp] theorem writeReg_draws (r : RegNum) (v : Word) : (s.writeReg r v).draws = s.draws := by
  unfold State.writeReg; split <;> rfl

/-! ## Registers -/

/-- Two registers other than x[0] stand at one place only if they are one register. -/
theorem regIndex_injective {r q : RegNum} (hr : r ≠ 0#5) (hq : q ≠ 0#5)
    (h : (regIndex r).val = (regIndex q).val) : r = q := by
  have h1 : r.toNat ≠ 0 := fun e => hr (BitVec.eq_of_toNat_eq (by simpa using e))
  have h2 : q.toNat ≠ 0 := fun e => hq (BitVec.eq_of_toNat_eq (by simpa using e))
  simp only [regIndex] at h
  exact BitVec.eq_of_toNat_eq (by omega)

/-- x[0] reads as zero (10_state.md R21). -/
@[simp] theorem readReg_zero : s.readReg 0#5 = 0x00000000#32 := rfl

/-- A write to x[0] is discarded (10_state.md R21). -/
@[simp] theorem writeReg_zero (v : Word) : s.writeReg 0#5 v = s := rfl

/-- Every register after a write: x[0] is zero, x[r] is the value, the others are as they were. -/
theorem readReg_writeReg (r q : RegNum) (v : Word) :
    (s.writeReg r v).readReg q = if q = 0#5 then 0x00000000#32 else if q = r then v else s.readReg q := by
  unfold State.readReg State.writeReg
  by_cases hq : q = 0#5
  · simp [hq]
  · by_cases hr : r = 0#5
    · subst hr; simp [hq]
    · by_cases e : q = r
      · subst e; simp [hq, Vector.get]
      · have hne : (regIndex r).val ≠ (regIndex q).val := fun h => e (regIndex_injective hr hq h).symm
        simp only [hq, hr, e, if_false]
        exact Vector.getElem_set_ne _ _ hne

/-- The register written reads as the value (unless it is x[0]). -/
theorem readReg_writeReg_same {r : RegNum} (h : r ≠ 0#5) (v : Word) : (s.writeReg r v).readReg r = v := by
  simp [readReg_writeReg, h]

/-- Another register keeps its value. -/
theorem readReg_writeReg_other {r q : RegNum} (h : q ≠ r) (v : Word) :
    (s.writeReg r v).readReg q = s.readReg q := by
  rw [readReg_writeReg]; split
  · next e => subst e; rfl
  · simp

@[simp] theorem readReg_setPc (a : Word) (r : RegNum) : (s.setPc a).readReg r = s.readReg r := rfl
@[simp] theorem readReg_advance (r : RegNum) : (s.advance).readReg r = s.readReg r := rfl
@[simp] theorem readReg_setIcc (f : Icc) (r : RegNum) : (s.setIcc f).readReg r = s.readReg r := rfl
@[simp] theorem readReg_countDraw (r : RegNum) : (s.countDraw).readReg r = s.readReg r := rfl
@[simp] theorem readReg_storeWord (a v : Word) (r : RegNum) : (s.storeWord a v).readReg r = s.readReg r := rfl

/-! ## Bytes and regions -/

@[simp] theorem dataByte_setPc (a : Word) (k : Nat) : (s.setPc a).dataByte k = s.dataByte k := rfl
@[simp] theorem progByte_setPc (a : Word) (k : Nat) : (s.setPc a).progByte k = s.progByte k := rfl
@[simp] theorem inRegions_setPc (a : Word) (w : Word) : (s.setPc a).inRegions w = s.inRegions w := rfl
@[simp] theorem dataByte_advance (k : Nat) : (s.advance).dataByte k = s.dataByte k := rfl
@[simp] theorem progByte_advance (k : Nat) : (s.advance).progByte k = s.progByte k := rfl
@[simp] theorem inRegions_advance (w : Word) : (s.advance).inRegions w = s.inRegions w := rfl
@[simp] theorem dataByte_setIcc (f : Icc) (k : Nat) : (s.setIcc f).dataByte k = s.dataByte k := rfl
@[simp] theorem progByte_setIcc (f : Icc) (k : Nat) : (s.setIcc f).progByte k = s.progByte k := rfl
@[simp] theorem inRegions_setIcc (f : Icc) (w : Word) : (s.setIcc f).inRegions w = s.inRegions w := rfl
@[simp] theorem dataByte_countDraw (k : Nat) : (s.countDraw).dataByte k = s.dataByte k := rfl
@[simp] theorem progByte_countDraw (k : Nat) : (s.countDraw).progByte k = s.progByte k := rfl
@[simp] theorem inRegions_countDraw (w : Word) : (s.countDraw).inRegions w = s.inRegions w := rfl
@[simp] theorem progByte_storeWord (a v : Word) (k : Nat) : (s.storeWord a v).progByte k = s.progByte k := rfl
@[simp] theorem inRegions_storeWord (a v : Word) (w : Word) : (s.storeWord a v).inRegions w = s.inRegions w := rfl
@[simp] theorem dataByte_writeReg (r : RegNum) (v : Word) (k : Nat) :
    (s.writeReg r v).dataByte k = s.dataByte k := by simp [State.dataByte]
@[simp] theorem progByte_writeReg (r : RegNum) (v : Word) (k : Nat) :
    (s.writeReg r v).progByte k = s.progByte k := by simp [State.progByte]
@[simp] theorem inRegions_writeReg (r : RegNum) (v : Word) (a : Word) :
    (s.writeReg r v).inRegions a = s.inRegions a := by simp [State.inRegions]

/-! ## Operand 2 -/

@[simp] theorem operand2_reg (r : RegNum) : s.operand2 (.reg r) = s.readReg r := rfl
@[simp] theorem operand2_imm (k : BitVec 13) : s.operand2 (.imm k) = k.signExtend 32 := rfl

end Sys2Proof.Machine
end

