-- ==== Sys2Proof/Laws/Memory.lean ====
section
/-! SUPPORT. Read after write, the canonical form, and the bytes a word's write touches (20_memory.md
R51, R54, R55). -/

namespace Sys2Proof.Machine

/-! ## One byte -/

/-- A byte read after a byte was listed. -/
theorem byte?_setByte (m : Memory) (a k : Nat) (b : Byte) :
    (m.setByte a b).byte? k = if k = a then some b else m.byte? k := by
  induction m with
  | nil => rfl
  | cons e m ih =>
    obtain ⟨c, d⟩ := e
    rw [Memory.setByte]
    split
    · rfl
    · split
      · next h => subst h; simp only [Memory.byte?]; split <;> rfl
      · next h =>
        simp only [Memory.byte?, ih]
        by_cases hk : k = c
        · subst hk; simp [Ne.symm h]
        · simp [hk]

/-- Listing a byte at or above `low` keeps the addresses rising above `low`. -/
theorem risingFrom_setByte (m : Memory) (low a : Nat) (b : Byte) (hl : low ≤ a) (ha : a < 2 ^ 32)
    (h : Memory.risingFrom low m = true) : Memory.risingFrom low (m.setByte a b) = true := by
  induction m generalizing low with
  | nil => simp [Memory.setByte, Memory.risingFrom, hl]; omega
  | cons e m ih =>
    obtain ⟨c, d⟩ := e
    simp only [Memory.risingFrom, Bool.and_eq_true, decide_eq_true_eq] at h
    obtain ⟨⟨h1, h2⟩, h3⟩ := h
    rw [Memory.setByte]
    split
    · next hlt =>
      simp only [Memory.risingFrom, Bool.and_eq_true, decide_eq_true_eq]
      exact ⟨⟨hl, ha⟩, ⟨by omega, h2⟩, h3⟩
    · split
      · next he => subst he; simp [Memory.risingFrom, h1, h3]; omega
      · next hlt hne =>
        simp only [Memory.risingFrom, Bool.and_eq_true, decide_eq_true_eq]
        exact ⟨⟨h1, h2⟩, ih (c + 1) (by omega) h3⟩

/-- Listing a byte at a 32-bit address keeps the canonical form. -/
theorem wf_setByte (m : Memory) (a : Nat) (b : Byte) (ha : a < 2 ^ 32) (h : m.wf = true) :
    (m.setByte a b).wf = true :=
  risingFrom_setByte m 0 a b (Nat.zero_le a) ha h

/-- The entries after a byte was listed: the new one, or an old one. -/
theorem mem_setByte (m : Memory) (a : Nat) (b : Byte) (e : Host.Cell) (h : e ∈ m.setByte a b) :
    e = (a, b) ∨ e ∈ m := by
  induction m with
  | nil => simpa [Memory.setByte] using h
  | cons f m ih =>
    obtain ⟨c, d⟩ := f
    rw [Memory.setByte] at h
    split at h
    · simpa using h
    · split at h
      · rcases List.mem_cons.1 h with h | h
        · exact .inl h
        · exact .inr (List.mem_cons_of_mem _ h)
      · rcases List.mem_cons.1 h with h | h
        · exact .inr (h ▸ List.mem_cons_self)
        · exact (ih h).imp id (List.mem_cons_of_mem _)

/-! ## One word -/

/-- The four bytes of a word, put together again, are the word. -/
theorem wordOfBytes_byteOfWord (w : Word) :
    wordOfBytes (byteOfWord w 0) (byteOfWord w 1) (byteOfWord w 2) (byteOfWord w 3) = w := by
  apply BitVec.eq_of_getLsbD_eq
  intro i hi
  simp only [wordOfBytes, byteOfWord, BitVec.getLsbD_append, BitVec.getLsbD_extractLsb']
  by_cases h1 : i < 8
  · simp [h1]
  · by_cases h2 : i < 16
    · simp only [h1, show i - 8 < 8 by omega]; simp; congr 1; omega
    · by_cases h3 : i < 24
      · simp only [h1, show ¬ i - 8 < 8 by omega, show i - 8 - 8 < 8 by omega]; simp; congr 1; omega
      · simp only [h1, show ¬ i - 8 < 8 by omega, show ¬ i - 8 - 8 < 8 by omega]
        simp; rw [show 24 + (i - 8 - 8 - 8) = i by omega]; simp; omega

/-- Byte k - a of the word at a, where k is one of its four addresses; else the byte as it was. -/
theorem byte?_writeWord (m : Memory) (a k : Nat) (v : Word) :
    (m.writeWord a v).byte? k =
      if a ≤ k ∧ k ≤ a + 3 then some (byteOfWord v (k - a)) else m.byte? k := by
  simp only [Memory.writeWord, byte?_setByte]
  by_cases h3 : k = a + 3
  · subst h3; simp
  by_cases h2 : k = a + 2
  · subst h2; simp
  by_cases h1 : k = a + 1
  · subst h1; simp
  by_cases h0 : k = a
  · subst h0; simp
  · rw [if_neg h3, if_neg h2, if_neg h1, if_neg h0, if_neg (by omega)]

/-- A word's write inside the 32-bit address space keeps the canonical form. -/
theorem wf_writeWord (m : Memory) (a : Nat) (v : Word) (ha : a + 3 < 2 ^ 32) (h : m.wf = true) :
    (m.writeWord a v).wf = true := by
  unfold Memory.writeWord
  exact wf_setByte _ _ _ (by omega) (wf_setByte _ _ _ (by omega)
    (wf_setByte _ _ _ (by omega) (wf_setByte _ _ _ (by omega) h)))

/-- The entries after a word's write: one of its four addresses, or an old entry. -/
theorem mem_writeWord (m : Memory) (a : Nat) (v : Word) (e : Host.Cell) (h : e ∈ m.writeWord a v) :
    (a ≤ e.1 ∧ e.1 ≤ a + 3) ∨ e ∈ m := by
  unfold Memory.writeWord at h
  rcases mem_setByte _ _ _ _ h with rfl | h
  · exact .inl (by simp)
  rcases mem_setByte _ _ _ _ h with rfl | h
  · exact .inl (by simp)
  rcases mem_setByte _ _ _ _ h with rfl | h
  · exact .inl (by simp)
  rcases mem_setByte _ _ _ _ h with rfl | h
  · exact .inl (by simp)
  · exact .inr h

/-! ## Alignment -/

/-- An aligned address is a multiple of 4 (20_memory.md R52). -/
theorem isAligned_iff (a : Word) : isAligned a = true ↔ a.toNat % 4 = 0 := by
  unfold isAligned
  rw [decide_eq_true_eq, BitVec.toNat_eq]
  simp [BitVec.extractLsb'_toNat]

/-- The word at an aligned address ends inside the address space. -/
theorem aligned_end (a : Word) (h : isAligned a = true) : a.toNat + 3 < 2 ^ 32 := by
  have h1 := (isAligned_iff a).1 h
  have h2 := a.isLt
  omega

/-! ## The memories of a state -/

/-- What LD's bytes read as after a store: the stored word's four bytes, and the others as before. -/
theorem dataByte_storeWord (s : State) (a v : Word) (k : Nat) :
    (s.storeWord a v).dataByte k =
      if a.toNat ≤ k ∧ k ≤ a.toNat + 3 then byteOfWord v (k - a.toNat) else s.dataByte k := by
  simp only [State.dataByte, storeWord_mem, byte?_writeWord]
  split <;> rfl

/-- A word read where it was just stored is the word stored (44_load_store.md R193). -/
theorem loadWord_storeWord_same (s : State) (a v : Word) : (s.storeWord a v).loadWord a = v := by
  simp only [State.loadWord, wordAt, dataByte_storeWord]
  rw [if_pos (by omega), if_pos (by omega), if_pos (by omega), if_pos (by omega)]
  simpa using wordOfBytes_byteOfWord v

/-- A word with none of the stored addresses reads as before. -/
theorem loadWord_storeWord_other (s : State) (a b v : Word)
    (h : b.toNat + 3 < a.toNat ∨ a.toNat + 3 < b.toNat) : (s.storeWord a v).loadWord b = s.loadWord b := by
  simp only [State.loadWord, wordAt, dataByte_storeWord]
  rw [if_neg (by omega), if_neg (by omega), if_neg (by omega), if_neg (by omega)]

/-- The fetch reads the placed word where pc stands. -/
theorem fetchWord_placeWord (s : State) (w : Word) : (s.placeWord s.pc w).fetchWord = w := by
  have key : ∀ (m : Memory) (g : Nat → Byte),
      wordAt (fun k => ((m.writeWord s.pc.toNat w).byte? k).getD (g k)) s.pc.toNat = w := by
    intro m g
    simp only [wordAt, byte?_writeWord]
    rw [if_pos (by omega), if_pos (by omega), if_pos (by omega), if_pos (by omega)]
    simpa using wordOfBytes_byteOfWord w
  unfold State.placeWord State.fetchWord State.fetchByte
  cases h : s.params.memOrg
  · simpa [h, State.dataByte] using key s.mem Config.unloadedByte
  · simpa [h, State.progByte] using key s.progMem Config.unloadedProgByte

/-- State.reset's memories have the canonical form. -/
theorem reset_memories_wf : Memory.wf State.reset.mem = true ∧ Memory.wf State.reset.progMem = true :=
  ⟨rfl, rfl⟩

end Sys2Proof.Machine
end

