-- ==== Sys2Proof/Laws/Ops.lean ====
section
/-! SUPPORT. What each shared operation can answer, said once; the provers cite these and unfold no
operation. -/

namespace Sys2Proof.Machine

/-! ## Outcomes -/

/-- Raising a fault writes the faulted condition and nothing else (60_exceptions.md R270). -/
theorem raise_next {f : Fault} {s t : State} (h : raise f s = .next t) :
    t = { s with faulted := some f } := by
  simpa [raise] using h.symm

/-- Everything `complete` does. -/
theorem complete_next {rd : RegNum} {v : Word} {s t : State} (h : complete rd v s = .next t) :
    t = (s.writeReg rd v).advance := by
  simpa [complete] using h.symm

/-- Everything `completeCc` does. -/
theorem completeCc_next {rd : RegNum} {v : Word} {f : Icc} {s t : State}
    (h : completeCc rd v f s = .next t) : t = ((s.writeReg rd v).setIcc f).advance := by
  simpa [completeCc] using h.symm

/-- Everything a branch does: pc goes to the target or to pc + 4 (45_branch.md R200). -/
theorem branchIf_eq (taken : Bool) (d : BitVec 22) (s : State) :
    branchIf taken d s = .next (s.setPc (if taken then branchTarget s.pc d else s.pc + 4#32)) := by
  cases taken <;> rfl

/-- Everything a jump with a link does: the link and pc, or the fault and nothing else
(46_call_jump.md R231, R233). -/
theorem jumpAndLink_eq (rd : RegNum) (a : Word) (s : State) :
    jumpAndLink rd a s =
      if isAligned a then .next ((s.writeReg rd s.pc).setPc a) else raise (.memAddressNotAligned a) s := by
  unfold jumpAndLink
  cases isAligned a <;> rfl

/-- The state after `complete`, field by field. -/
theorem complete_fields {rd : RegNum} {v : Word} {s t : State} (h : complete rd v s = .next t) :
    (∀ r, t.readReg r = if r = 0#5 then 0x00000000#32 else if r = rd then v else s.readReg r) ∧
      t.pc = s.pc + 4#32 ∧ t.icc = s.icc ∧ t.mem = s.mem ∧ t.progMem = s.progMem ∧
      t.params = s.params ∧ t.faulted = s.faulted ∧ t.draws = s.draws := by
  obtain rfl := complete_next h
  refine ⟨fun r => ?_, ?_, ?_, ?_, ?_, ?_, ?_, ?_⟩
  · simpa using readReg_writeReg s rd r v
  all_goals simp

/-- The state after `completeCc`, field by field. -/
theorem completeCc_fields {rd : RegNum} {v : Word} {f : Icc} {s t : State}
    (h : completeCc rd v f s = .next t) :
    (∀ r, t.readReg r = if r = 0#5 then 0x00000000#32 else if r = rd then v else s.readReg r) ∧
      t.pc = s.pc + 4#32 ∧ t.icc = f ∧ t.mem = s.mem ∧ t.progMem = s.progMem ∧
      t.params = s.params ∧ t.faulted = s.faulted ∧ t.draws = s.draws := by
  obtain rfl := completeCc_next h
  refine ⟨fun r => ?_, ?_, ?_, ?_, ?_, ?_, ?_, ?_⟩
  · simpa using readReg_writeReg s rd r v
  all_goals simp

/-! ## Addresses of transfers (10_state.md R27) -/

/-- pc + 4 keeps the alignment. -/
theorem isAligned_add4 {a : Word} (h : isAligned a = true) : isAligned (a + 4#32) = true := by
  rw [isAligned_iff] at *
  simp only [BitVec.toNat_add, BitVec.toNat_ofNat]; omega

/-- pc + 4 * anything keeps the alignment. -/
theorem isAligned_add4mul {a : Word} (d : Word) (h : isAligned a = true) : isAligned (a + 4#32 * d) = true := by
  rw [isAligned_iff] at *
  simp only [BitVec.toNat_add, BitVec.toNat_mul, BitVec.toNat_ofNat]; omega

/-! ## The fetch and the step (60_exceptions.md R273; 70_reset_and_hazards.md R302) -/

/-- What the fetch can give, in the order of its checks. -/
theorem fetchInstr_cases (s : State) :
    (isAligned s.pc = false ∧ fetchInstr s = .raises (.memAddressNotAligned s.pc)) ∨
    (isAligned s.pc = true ∧ s.inRegions s.pc = false ∧ fetchInstr s = .raises (.instructionAccess s.pc)) ∨
    (isAligned s.pc = true ∧ s.inRegions s.pc = true ∧
      ∃ r, decode s.fetchWord = .illegal r ∧ fetchInstr s = .raises (.illegalInstruction s.fetchWord)) ∨
    (isAligned s.pc = true ∧ s.inRegions s.pc = true ∧
      ∃ i, decode s.fetchWord = .instr i ∧ fetchInstr s = .instr i) := by
  unfold fetchInstr
  cases h1 : isAligned s.pc
  · simp
  · cases h2 : s.inRegions s.pc
    · simp
    · cases h3 : decode s.fetchWord <;> simp

/-- Everything a step can be: no successor of a faulted state, the fault of the fetch, or the decoded
instruction. -/
theorem step_cases (s : State) :
    (∃ f, s.faulted = some f ∧ step s = .fault f) ∨
    (s.faulted = none ∧ ∃ f, fetchInstr s = .raises f ∧ step s = raise f s) ∨
    (s.faulted = none ∧ ∃ i, fetchInstr s = .instr i ∧ step s = exec i s) := by
  unfold step
  cases h : s.faulted with
  | some f => simp
  | none => cases h2 : fetchInstr s <;> simp

end Sys2Proof.Machine
end

