-- ==== Sys2Proof/Laws/PerInstr.lean ====
section
/-! SUPPORT. The family RowOfEncoding, one lemma per instruction: the word the encoder writes lies in
the instruction's own row of the opcode table (30_encoding.md R92 to R96), whatever its operands and
whatever LDST_FILL holds. -/

namespace Sys2Proof.Laws.RowOfEncoding

/-- Some row of the table has the instruction's mnemonic and matches its word. -/
def Statement (i : Instr) : Prop :=
  ∀ fill, ∃ r ∈ opcodeRows, r.mnemonic = Machine.mnemonic i ∧ r.matchesWord (encodeWith fill i) = true

theorem add (rd rs1 : RegNum) (o : Operand2) : Statement (.add rd rs1 o) := fun _ =>
  ⟨arithRow "ADD" 0x00#6, by decide, rfl, arithRow_matches _ _ rd rs1 o⟩

theorem and (rd rs1 : RegNum) (o : Operand2) : Statement (.and rd rs1 o) := fun _ =>
  ⟨arithRow "AND" 0x01#6, by decide, rfl, arithRow_matches _ _ rd rs1 o⟩

theorem or (rd rs1 : RegNum) (o : Operand2) : Statement (.or rd rs1 o) := fun _ =>
  ⟨arithRow "OR" 0x02#6, by decide, rfl, arithRow_matches _ _ rd rs1 o⟩

theorem xor (rd rs1 : RegNum) (o : Operand2) : Statement (.xor rd rs1 o) := fun _ =>
  ⟨arithRow "XOR" 0x03#6, by decide, rfl, arithRow_matches _ _ rd rs1 o⟩

theorem sub (rd rs1 : RegNum) (o : Operand2) : Statement (.sub rd rs1 o) := fun _ =>
  ⟨arithRow "SUB" 0x04#6, by decide, rfl, arithRow_matches _ _ rd rs1 o⟩

theorem andn (rd rs1 : RegNum) (o : Operand2) : Statement (.andn rd rs1 o) := fun _ =>
  ⟨arithRow "ANDN" 0x05#6, by decide, rfl, arithRow_matches _ _ rd rs1 o⟩

theorem orn (rd rs1 : RegNum) (o : Operand2) : Statement (.orn rd rs1 o) := fun _ =>
  ⟨arithRow "ORN" 0x06#6, by decide, rfl, arithRow_matches _ _ rd rs1 o⟩

theorem xnor (rd rs1 : RegNum) (o : Operand2) : Statement (.xnor rd rs1 o) := fun _ =>
  ⟨arithRow "XNOR" 0x07#6, by decide, rfl, arithRow_matches _ _ rd rs1 o⟩

theorem addx (rd rs1 : RegNum) (o : Operand2) : Statement (.addx rd rs1 o) := fun _ =>
  ⟨arithRow "ADDX" 0x08#6, by decide, rfl, arithRow_matches _ _ rd rs1 o⟩

theorem umul (rd rs1 : RegNum) (o : Operand2) : Statement (.umul rd rs1 o) := fun _ =>
  ⟨arithRow "UMUL" 0x0A#6, by decide, rfl, arithRow_matches _ _ rd rs1 o⟩

theorem smul (rd rs1 : RegNum) (o : Operand2) : Statement (.smul rd rs1 o) := fun _ =>
  ⟨arithRow "SMUL" 0x0B#6, by decide, rfl, arithRow_matches _ _ rd rs1 o⟩

theorem subx (rd rs1 : RegNum) (o : Operand2) : Statement (.subx rd rs1 o) := fun _ =>
  ⟨arithRow "SUBX" 0x0C#6, by decide, rfl, arithRow_matches _ _ rd rs1 o⟩

theorem udiv (rd rs1 : RegNum) (o : Operand2) : Statement (.udiv rd rs1 o) := fun _ =>
  ⟨arithRow "UDIV" 0x0E#6, by decide, rfl, arithRow_matches _ _ rd rs1 o⟩

theorem sdiv (rd rs1 : RegNum) (o : Operand2) : Statement (.sdiv rd rs1 o) := fun _ =>
  ⟨arithRow "SDIV" 0x0F#6, by decide, rfl, arithRow_matches _ _ rd rs1 o⟩

theorem addcc (rd rs1 : RegNum) (o : Operand2) : Statement (.addcc rd rs1 o) := fun _ =>
  ⟨arithRow "ADDcc" 0x10#6, by decide, rfl, arithRow_matches _ _ rd rs1 o⟩

theorem andcc (rd rs1 : RegNum) (o : Operand2) : Statement (.andcc rd rs1 o) := fun _ =>
  ⟨arithRow "ANDcc" 0x11#6, by decide, rfl, arithRow_matches _ _ rd rs1 o⟩

theorem orcc (rd rs1 : RegNum) (o : Operand2) : Statement (.orcc rd rs1 o) := fun _ =>
  ⟨arithRow "ORcc" 0x12#6, by decide, rfl, arithRow_matches _ _ rd rs1 o⟩

theorem xorcc (rd rs1 : RegNum) (o : Operand2) : Statement (.xorcc rd rs1 o) := fun _ =>
  ⟨arithRow "XORcc" 0x13#6, by decide, rfl, arithRow_matches _ _ rd rs1 o⟩

theorem subcc (rd rs1 : RegNum) (o : Operand2) : Statement (.subcc rd rs1 o) := fun _ =>
  ⟨arithRow "SUBcc" 0x14#6, by decide, rfl, arithRow_matches _ _ rd rs1 o⟩

theorem andncc (rd rs1 : RegNum) (o : Operand2) : Statement (.andncc rd rs1 o) := fun _ =>
  ⟨arithRow "ANDNcc" 0x15#6, by decide, rfl, arithRow_matches _ _ rd rs1 o⟩

theorem orncc (rd rs1 : RegNum) (o : Operand2) : Statement (.orncc rd rs1 o) := fun _ =>
  ⟨arithRow "ORNcc" 0x16#6, by decide, rfl, arithRow_matches _ _ rd rs1 o⟩

theorem xnorcc (rd rs1 : RegNum) (o : Operand2) : Statement (.xnorcc rd rs1 o) := fun _ =>
  ⟨arithRow "XNORcc" 0x17#6, by decide, rfl, arithRow_matches _ _ rd rs1 o⟩

theorem addxcc (rd rs1 : RegNum) (o : Operand2) : Statement (.addxcc rd rs1 o) := fun _ =>
  ⟨arithRow "ADDXcc" 0x18#6, by decide, rfl, arithRow_matches _ _ rd rs1 o⟩

theorem umulcc (rd rs1 : RegNum) (o : Operand2) : Statement (.umulcc rd rs1 o) := fun _ =>
  ⟨arithRow "UMULcc" 0x1A#6, by decide, rfl, arithRow_matches _ _ rd rs1 o⟩

theorem smulcc (rd rs1 : RegNum) (o : Operand2) : Statement (.smulcc rd rs1 o) := fun _ =>
  ⟨arithRow "SMULcc" 0x1B#6, by decide, rfl, arithRow_matches _ _ rd rs1 o⟩

theorem subxcc (rd rs1 : RegNum) (o : Operand2) : Statement (.subxcc rd rs1 o) := fun _ =>
  ⟨arithRow "SUBXcc" 0x1C#6, by decide, rfl, arithRow_matches _ _ rd rs1 o⟩

theorem udivcc (rd rs1 : RegNum) (o : Operand2) : Statement (.udivcc rd rs1 o) := fun _ =>
  ⟨arithRow "UDIVcc" 0x1E#6, by decide, rfl, arithRow_matches _ _ rd rs1 o⟩

theorem sdivcc (rd rs1 : RegNum) (o : Operand2) : Statement (.sdivcc rd rs1 o) := fun _ =>
  ⟨arithRow "SDIVcc" 0x1F#6, by decide, rfl, arithRow_matches _ _ rd rs1 o⟩

theorem sll (rd rs1 : RegNum) (o : Operand2) : Statement (.sll rd rs1 o) := fun _ =>
  ⟨arithRow "SLL" 0x25#6, by decide, rfl, arithRow_matches _ _ rd rs1 o⟩

theorem srl (rd rs1 : RegNum) (o : Operand2) : Statement (.srl rd rs1 o) := fun _ =>
  ⟨arithRow "SRL" 0x26#6, by decide, rfl, arithRow_matches _ _ rd rs1 o⟩

theorem sra (rd rs1 : RegNum) (o : Operand2) : Statement (.sra rd rs1 o) := fun _ =>
  ⟨arithRow "SRA" 0x27#6, by decide, rfl, arithRow_matches _ _ rd rs1 o⟩

theorem ld (rd rs1 : RegNum) (o : Operand2) : Statement (.ld rd rs1 o) := fun fill =>
  ⟨⟨"LD", 0xC1F80000#32, 0xC0000000#32⟩, by decide, rfl, by
    refine decide_eq_true ?_; simp only [encodeWith, format3_masked]; rfl⟩

theorem st (rd rs1 : RegNum) (o : Operand2) : Statement (.st rd rs1 o) := fun fill =>
  ⟨⟨"ST", 0xC1F80000#32, 0xC0200000#32⟩, by decide, rfl, by
    refine decide_eq_true ?_; simp only [encodeWith, format3_masked]; rfl⟩

theorem bn (d : BitVec 22) : Statement (.bn d) := fun _ =>
  ⟨branchRow "BN" 0#4, by decide, rfl, branchRow_matches _ _ d⟩

theorem be (d : BitVec 22) : Statement (.be d) := fun _ =>
  ⟨branchRow "BE" 1#4, by decide, rfl, branchRow_matches _ _ d⟩

theorem ble (d : BitVec 22) : Statement (.ble d) := fun _ =>
  ⟨branchRow "BLE" 2#4, by decide, rfl, branchRow_matches _ _ d⟩

theorem bl (d : BitVec 22) : Statement (.bl d) := fun _ =>
  ⟨branchRow "BL" 3#4, by decide, rfl, branchRow_matches _ _ d⟩

theorem bleu (d : BitVec 22) : Statement (.bleu d) := fun _ =>
  ⟨branchRow "BLEU" 4#4, by decide, rfl, branchRow_matches _ _ d⟩

theorem bcs (d : BitVec 22) : Statement (.bcs d) := fun _ =>
  ⟨branchRow "BCS" 5#4, by decide, rfl, branchRow_matches _ _ d⟩

theorem bneg (d : BitVec 22) : Statement (.bneg d) := fun _ =>
  ⟨branchRow "BNEG" 6#4, by decide, rfl, branchRow_matches _ _ d⟩

theorem bvs (d : BitVec 22) : Statement (.bvs d) := fun _ =>
  ⟨branchRow "BVS" 7#4, by decide, rfl, branchRow_matches _ _ d⟩

theorem ba (d : BitVec 22) : Statement (.ba d) := fun _ =>
  ⟨branchRow "BA" 8#4, by decide, rfl, branchRow_matches _ _ d⟩

theorem bne (d : BitVec 22) : Statement (.bne d) := fun _ =>
  ⟨branchRow "BNE" 9#4, by decide, rfl, branchRow_matches _ _ d⟩

theorem bg (d : BitVec 22) : Statement (.bg d) := fun _ =>
  ⟨branchRow "BG" 10#4, by decide, rfl, branchRow_matches _ _ d⟩

theorem bge (d : BitVec 22) : Statement (.bge d) := fun _ =>
  ⟨branchRow "BGE" 11#4, by decide, rfl, branchRow_matches _ _ d⟩

theorem bgu (d : BitVec 22) : Statement (.bgu d) := fun _ =>
  ⟨branchRow "BGU" 12#4, by decide, rfl, branchRow_matches _ _ d⟩

theorem bcc (d : BitVec 22) : Statement (.bcc d) := fun _ =>
  ⟨branchRow "BCC" 13#4, by decide, rfl, branchRow_matches _ _ d⟩

theorem bpos (d : BitVec 22) : Statement (.bpos d) := fun _ =>
  ⟨branchRow "BPOS" 14#4, by decide, rfl, branchRow_matches _ _ d⟩

theorem bvc (d : BitVec 22) : Statement (.bvc d) := fun _ =>
  ⟨branchRow "BVC" 15#4, by decide, rfl, branchRow_matches _ _ d⟩

theorem call (d : BitVec 30) : Statement (.call d) := fun _ =>
  ⟨⟨"CALL", 0xC0000000#32, 0x40000000#32⟩, by decide, rfl, by
    refine decide_eq_true ?_
    simp only [encodeWith]
    apply BitVec.eq_of_getLsbD_eq; intro i hi
    interval_cases i <;> (simp only [BitVec.getLsbD_and, BitVec.getLsbD_append]; simp)⟩

theorem retl : Statement .retl := fun _ =>
  ⟨⟨"RETL", 0xFFFFFFFF#32, 0x81C3E008#32⟩, by decide, rfl, decide_eq_true BitVec.and_allOnes⟩

theorem jmpl (rd rs1 : RegNum) (o : Operand2) : Statement (.jmpl rd rs1 o) := fun _ =>
  ⟨arithRow "JMPL" 0x38#6, by decide, rfl, arithRow_matches _ _ rd rs1 o⟩

theorem sethi (rd : RegNum) (k : BitVec 22) : Statement (.sethi rd k) := fun _ =>
  ⟨⟨"SETHI", 0xC1C00000#32, 0x01000000#32⟩, by decide, rfl, by
    refine decide_eq_true ?_
    simp only [encodeWith]
    apply BitVec.eq_of_getLsbD_eq; intro i hi
    interval_cases i <;> (simp only [BitVec.getLsbD_and, BitVec.getLsbD_append]; simp)⟩

end Sys2Proof.Laws.RowOfEncoding
end

