-- ==== Sys2Proof/Tests/Slice0.lean ====
section
/-! SUPPORT. The model's own tests. The words, the states before and the values after are those of
spec/95_test_vectors.md and spec/96_test_vectors_derived.md, or written from the encodings of
30_encoding.md; none is the model's own answer. The theorems `test_witness_…` show that the hypotheses
of the statement named are met. -/

namespace Sys2Proof.Tests

open Sys2Proof.Machine

/-! ## Well-formedness -/

/-- The one ill-formed term, RETL's word under the name JMPL, is refused (46_call_jump.md R232). -/
theorem test_wf_refuses_retl_as_jmpl : Instr.wf (.jmpl 0#5 15#5 (.imm 8#13)) = false := by decide

/-- Its neighbours are accepted: another constant, another register, the register form. -/
theorem test_wf_accepts_neighbours :
    Instr.wf (.jmpl 0#5 15#5 (.imm 12#13)) = true ∧ Instr.wf (.jmpl 1#5 15#5 (.imm 8#13)) = true ∧
    Instr.wf (.jmpl 0#5 14#5 (.imm 8#13)) = true ∧ Instr.wf (.jmpl 0#5 15#5 (.reg 8#5)) = true ∧
    Instr.wf .retl = true := by decide

/-! ## Decoding, one word for every constructor -/

/-- One word per format and family, bit by bit from the layouts of R81 to R84 and R92 to R96. -/
theorem test_decode_bit_by_bit :
    decode (0b10#2 ++ 0b00011#5 ++ 0b010001#6 ++ 0b00001#5 ++ 0b0#1 ++ 0b00000000#8 ++ 0b00010#5) =
      .instr (.andcc 3#5 1#5 (.reg 2#5)) ∧
    decode (0b10#2 ++ 0b00011#5 ++ 0b001100#6 ++ 0b00001#5 ++ 0b1#1 ++ 0b1111111111111#13) =
      .instr (.subx 3#5 1#5 (.imm 0x1FFF#13)) ∧
    decode (0b10#2 ++ 0b11111#5 ++ 0b011110#6 ++ 0b10000#5 ++ 0b0#1 ++ 0b00000000#8 ++ 0b01000#5) =
      .instr (.udivcc 31#5 16#5 (.reg 8#5)) ∧
    decode (0b10#2 ++ 0b00011#5 ++ 0b100111#6 ++ 0b00001#5 ++ 0b1#1 ++ 0b0000000000100#13) =
      .instr (.sra 3#5 1#5 (.imm 4#13)) ∧
    decode (0b11#2 ++ 0b00011#5 ++ 0b000100#6 ++ 0b00001#5 ++ 0b0#1 ++ 0b00001010#8 ++ 0b00010#5) =
      .instr (.st 3#5 1#5 (.reg 2#5)) ∧
    decode (0b00#2 ++ 0b0#1 ++ 0b1101#4 ++ 0b010#3 ++ 0b0000000000000000000101#22) = .instr (.bcc 5#22) ∧
    decode (0b00#2 ++ 0b00011#5 ++ 0b100#3 ++ 0b0001001000110100010101#22) =
      .instr (.sethi 3#5 0x48D15#22) ∧
    decode (0b01#2 ++ 0b000000000000000000000000000010#30) = .instr (.call 2#30) ∧
    decode (0b10#2 ++ 0b00000#5 ++ 0b111000#6 ++ 0b01111#5 ++ 0b1#1 ++ 0b0000000001000#13) =
      .instr .retl ∧
    decode (0b10#2 ++ 0b00000#5 ++ 0b111000#6 ++ 0b01111#5 ++ 0b0#1 ++ 0b00000000#8 ++ 0b01000#5) =
      .instr (.jmpl 0#5 15#5 (.reg 8#5)) := by decide

/-- The logical rows (R121 to R132). -/
theorem test_decode_logical :
    decode 0x86084002#32 = .instr (.and 3#5 1#5 (.reg 2#5)) ∧
    decode 0x86107000#32 = .instr (.or 3#5 1#5 (.imm 0x1000#13)) ∧
    decode 0x86184002#32 = .instr (.xor 3#5 1#5 (.reg 2#5)) ∧
    decode 0x86284002#32 = .instr (.andn 3#5 1#5 (.reg 2#5)) ∧
    decode 0x86304002#32 = .instr (.orn 3#5 1#5 (.reg 2#5)) ∧
    decode 0x86384002#32 = .instr (.xnor 3#5 1#5 (.reg 2#5)) ∧
    decode 0x86884002#32 = .instr (.andcc 3#5 1#5 (.reg 2#5)) ∧
    decode 0x86904002#32 = .instr (.orcc 3#5 1#5 (.reg 2#5)) ∧
    decode 0x86984002#32 = .instr (.xorcc 3#5 1#5 (.reg 2#5)) ∧
    decode 0x86A84002#32 = .instr (.andncc 3#5 1#5 (.reg 2#5)) ∧
    decode 0x86B04002#32 = .instr (.orncc 3#5 1#5 (.reg 2#5)) ∧
    decode 0x86B84002#32 = .instr (.xnorcc 3#5 1#5 (.reg 2#5)) := by decide

/-- The add and subtract rows (R141 to R148). -/
theorem test_decode_add_sub :
    decode 0x86006FFF#32 = .instr (.add 3#5 1#5 (.imm 0xFFF#13)) ∧
    decode 0x86204002#32 = .instr (.sub 3#5 1#5 (.reg 2#5)) ∧
    decode 0x86404002#32 = .instr (.addx 3#5 1#5 (.reg 2#5)) ∧
    decode 0x86604002#32 = .instr (.subx 3#5 1#5 (.reg 2#5)) ∧
    decode 0x86804002#32 = .instr (.addcc 3#5 1#5 (.reg 2#5)) ∧
    decode 0x86A04002#32 = .instr (.subcc 3#5 1#5 (.reg 2#5)) ∧
    decode 0x86C04002#32 = .instr (.addxcc 3#5 1#5 (.reg 2#5)) ∧
    decode 0x86E04002#32 = .instr (.subxcc 3#5 1#5 (.reg 2#5)) := by decide

/-- The multiply and divide rows (R161 to R169). -/
theorem test_decode_mul_div :
    decode 0x86504002#32 = .instr (.umul 3#5 1#5 (.reg 2#5)) ∧
    decode 0x86584002#32 = .instr (.smul 3#5 1#5 (.reg 2#5)) ∧
    decode 0x86D04002#32 = .instr (.umulcc 3#5 1#5 (.reg 2#5)) ∧
    decode 0x86D84002#32 = .instr (.smulcc 3#5 1#5 (.reg 2#5)) ∧
    decode 0x8670600A#32 = .instr (.udiv 3#5 1#5 (.imm 10#13)) ∧
    decode 0x86784002#32 = .instr (.sdiv 3#5 1#5 (.reg 2#5)) ∧
    decode 0x86F04002#32 = .instr (.udivcc 3#5 1#5 (.reg 2#5)) ∧
    decode 0x86F84002#32 = .instr (.sdivcc 3#5 1#5 (.reg 2#5)) := by decide

/-- The shift rows and LD, ST, with LDST_FILL and with zeros in bits 12:5 (R181 to R183, R191, R192). -/
theorem test_decode_shift_and_memory :
    decode 0x87284002#32 = .instr (.sll 3#5 1#5 (.reg 2#5)) ∧
    decode 0x87304002#32 = .instr (.srl 3#5 1#5 (.reg 2#5)) ∧
    decode 0x87384002#32 = .instr (.sra 3#5 1#5 (.reg 2#5)) ∧
    decode 0xC6004142#32 = .instr (.ld 3#5 1#5 (.reg 2#5)) ∧
    decode 0xC6004002#32 = .instr (.ld 3#5 1#5 (.reg 2#5)) ∧
    decode 0xC6007FFC#32 = .instr (.ld 3#5 1#5 (.imm 0x1FFC#13)) ∧
    decode 0xC6204142#32 = .instr (.st 3#5 1#5 (.reg 2#5)) ∧
    decode 0xC6207FF8#32 = .instr (.st 3#5 1#5 (.imm 0x1FF8#13)) := by decide

/-- The sixteen branches with displacement 5, and a negative one (R202 to R217). -/
theorem test_decode_branches :
    decode 0x00800005#32 = .instr (.bn 5#22) ∧
    decode 0x02800005#32 = .instr (.be 5#22) ∧
    decode 0x04800005#32 = .instr (.ble 5#22) ∧
    decode 0x06800005#32 = .instr (.bl 5#22) ∧
    decode 0x08800005#32 = .instr (.bleu 5#22) ∧
    decode 0x0A800005#32 = .instr (.bcs 5#22) ∧
    decode 0x0C800005#32 = .instr (.bneg 5#22) ∧
    decode 0x0E800005#32 = .instr (.bvs 5#22) ∧
    decode 0x10800005#32 = .instr (.ba 5#22) ∧
    decode 0x12800005#32 = .instr (.bne 5#22) ∧
    decode 0x14800005#32 = .instr (.bg 5#22) ∧
    decode 0x16800005#32 = .instr (.bge 5#22) ∧
    decode 0x18800005#32 = .instr (.bgu 5#22) ∧
    decode 0x1A800005#32 = .instr (.bcc 5#22) ∧
    decode 0x1C800005#32 = .instr (.bpos 5#22) ∧
    decode 0x1E800005#32 = .instr (.bvc 5#22) ∧
    decode 0x12BFFFFC#32 = .instr (.bne 0x3FFFFC#22) := by decide

/-- CALL, JMPL, RETL, SETHI (R230 to R232, R240). -/
theorem test_decode_transfers_and_sethi :
    decode 0x7FFFFFFF#32 = .instr (.call 0x3FFFFFFF#30) ∧
    decode 0x87C04002#32 = .instr (.jmpl 3#5 1#5 (.reg 2#5)) ∧
    decode 0x83C06008#32 = .instr (.jmpl 1#5 1#5 (.imm 8#13)) ∧
    decode 0x81C3E008#32 = .instr .retl ∧
    decode 0x3F2AAAAA#32 = .instr (.sethi 31#5 0x2AAAAA#22) := by decide

/-- Words that R87 and R95 call no instruction are rejected by name. -/
theorem test_decode_rejects :
    decode 0x30800003#32 = .illegal (.annulledBranch 0x30800003#32) ∧
    decode 0x00000000#32 = .illegal (.unassigned 0x00000000#32) ∧
    decode 0x80480000#32 = .illegal (.unassigned 0x80480000#32) ∧
    decode 0xC0080000#32 = .illegal (.unassigned 0xC0080000#32) ∧
    decodeBytes [0x86#8, 0x00#8, 0x40#8] = (.illegal .truncated, []) := by decide

/-- The decoder takes the bytes of a word in big-endian order (20_memory.md R51), and the table's word
likewise. -/
theorem test_decode_byte_order :
    decodeBytes [0x86#8, 0x00#8, 0x40#8, 0x02#8, 0x55#8] = (.instr (.add 3#5 1#5 (.reg 2#5)), [0x55#8]) ∧
    decodeTableWord 32 0x86004002 = some (.add 3#5 1#5 (.reg 2#5)) ∧
    decodeTableWord 32 0x81C3E008 = some .retl := by decide

/-! ## One step of every instruction (96_test_vectors_derived.md) -/

/-- pc = 0x1000 and MEM_REGIONS = 0x1000 to 0x2FFF, as 95_test_vectors.md's conventions say. -/
def start : State :=
  { State.reset with
    pc := 0x1000#32, params := { Config.defaultParams with memRegions := [⟨0x1000, 0x2FFF⟩] } }

/-- `start` with registers, flags and one word of memory set. -/
def startWith (regs : List (RegNum × Word)) (icc : Icc) : State :=
  (regs.foldl (fun s e => s.writeReg e.1 e.2) start).setIcc icc

/-- Four flags written n, z, v, c as the vectors write them. -/
def nzvc (f : BitVec 4) : Icc := ⟨f.getLsbD 3, f.getLsbD 2, f.getLsbD 1, f.getLsbD 0⟩

/-- What a vector looks at: one register, pc, icc and the faulted condition. -/
def seen (r : RegNum) : Host.Outcome State Fault Refusal → Option (Word × Word × Icc × Option Fault)
  | .next t => some (t.readReg r, t.pc, t.icc, t.faulted)
  | .fault _ => none
  | .refused _ => none

/-- One step of a word from `startWith`. -/
def run (w : Nat) (regs : List (RegNum × Word)) (f : BitVec 4) (r : RegNum) :
    Option (Word × Word × Icc × Option Fault) :=
  seen r (step ((startWith regs (nzvc f)).withFetchWord 32 w))

/-- The same with one word of memory stored first. -/
def runMem (w : Nat) (regs : List (RegNum × Word)) (f : BitVec 4) (a v : Word) (r : RegNum) :
    Option (Word × Word × Icc × Option Fault) :=
  seen r (step (((startWith regs (nzvc f)).storeWord a v).withFetchWord 32 w))

/-- 2.1. -/
theorem test_and :
    run 0x86084002 [(1#5, 0xFFFF0000#32), (2#5, 0x0FF00FF0#32)] 0b1111#4 3#5 =
      some (0x0FF00000#32, 0x00001004#32, nzvc 0b1111#4, none) := by decide

/-- 2.1. -/
theorem test_or :
    run 0x86104002 [(1#5, 0xFFFF0000#32), (2#5, 0x0FF00FF0#32)] 0b1111#4 3#5 =
      some (0xFFFF0FF0#32, 0x00001004#32, nzvc 0b1111#4, none) := by decide

/-- 2.1. -/
theorem test_xor :
    run 0x86184002 [(1#5, 0xFFFF0000#32), (2#5, 0x0FF00FF0#32)] 0b1111#4 3#5 =
      some (0xF00F0FF0#32, 0x00001004#32, nzvc 0b1111#4, none) := by decide

/-- 2.1. -/
theorem test_andn :
    run 0x86284002 [(1#5, 0xFFFF0000#32), (2#5, 0x0FF00FF0#32)] 0b1111#4 3#5 =
      some (0xF00F0000#32, 0x00001004#32, nzvc 0b1111#4, none) := by decide

/-- 2.1. -/
theorem test_orn :
    run 0x86304002 [(1#5, 0xFFFF0000#32), (2#5, 0x0FF00FF0#32)] 0b1111#4 3#5 =
      some (0xFFFFF00F#32, 0x00001004#32, nzvc 0b1111#4, none) := by decide

/-- 2.1. -/
theorem test_xnor :
    run 0x86384002 [(1#5, 0xFFFF0000#32), (2#5, 0x0FF00FF0#32)] 0b1111#4 3#5 =
      some (0x0FF0F00F#32, 0x00001004#32, nzvc 0b1111#4, none) := by decide

/-- 2.1. -/
theorem test_andcc :
    run 0x86884002 [(1#5, 0xFFFF0000#32), (2#5, 0x0FF00FF0#32)] 0b1111#4 3#5 =
      some (0x0FF00000#32, 0x00001004#32, nzvc 0b0000#4, none) := by decide

/-- 2.1. -/
theorem test_orcc :
    run 0x86904002 [(1#5, 0xFFFF0000#32), (2#5, 0x0FF00FF0#32)] 0b1111#4 3#5 =
      some (0xFFFF0FF0#32, 0x00001004#32, nzvc 0b1000#4, none) := by decide

/-- 2.1. -/
theorem test_xorcc :
    run 0x86984002 [(1#5, 0xFFFF0000#32), (2#5, 0x0FF00FF0#32)] 0b1111#4 3#5 =
      some (0xF00F0FF0#32, 0x00001004#32, nzvc 0b1000#4, none) := by decide

/-- 2.1. -/
theorem test_andncc :
    run 0x86A84002 [(1#5, 0xFFFF0000#32), (2#5, 0x0FF00FF0#32)] 0b1111#4 3#5 =
      some (0xF00F0000#32, 0x00001004#32, nzvc 0b1000#4, none) := by decide

/-- 2.1. -/
theorem test_orncc :
    run 0x86B04002 [(1#5, 0xFFFF0000#32), (2#5, 0x0FF00FF0#32)] 0b1111#4 3#5 =
      some (0xFFFFF00F#32, 0x00001004#32, nzvc 0b1000#4, none) := by decide

/-- 2.1. -/
theorem test_xnorcc :
    run 0x86B84002 [(1#5, 0xFFFF0000#32), (2#5, 0x0FF00FF0#32)] 0b1111#4 3#5 =
      some (0x0FF0F00F#32, 0x00001004#32, nzvc 0b0000#4, none) := by decide

/-- 2.2: -4096 sign-extended. -/
theorem test_add_negative_constant :
    run 0x86007000 [(1#5, 0x00001000#32)] 0b1010#4 3#5 =
      some (0x00000000#32, 0x00001004#32, nzvc 0b1010#4, none) := by decide

/-- 2.2. -/
theorem test_sub_wraps :
    run 0x86204002 [(1#5, 0x00000000#32), (2#5, 0x00000001#32)] 0b1010#4 3#5 =
      some (0xFFFFFFFF#32, 0x00001004#32, nzvc 0b1010#4, none) := by decide

/-- 2.2. -/
theorem test_addx_carry :
    run 0x86404002 [(1#5, 0x0000000A#32), (2#5, 0x00000014#32)] 0b0001#4 3#5 =
      some (0x0000001F#32, 0x00001004#32, nzvc 0b0001#4, none) := by decide

/-- 2.2. -/
theorem test_subx_borrow :
    run 0x86604002 [(1#5, 0x00000000#32), (2#5, 0x00000000#32)] 0b0101#4 3#5 =
      some (0xFFFFFFFF#32, 0x00001004#32, nzvc 0b0101#4, none) := by decide

/-- 2.2. -/
theorem test_addcc_overflow :
    run 0x86804002 [(1#5, 0x80000000#32), (2#5, 0xFFFFFFFF#32)] 0b0000#4 3#5 =
      some (0x7FFFFFFF#32, 0x00001004#32, nzvc 0b0011#4, none) := by decide

/-- 2.2. -/
theorem test_subcc_overflow :
    run 0x86A04002 [(1#5, 0x7FFFFFFF#32), (2#5, 0xFFFFFFFF#32)] 0b0000#4 3#5 =
      some (0x80000000#32, 0x00001004#32, nzvc 0b1011#4, none) := by decide

/-- 2.2. -/
theorem test_addxcc_carry_out :
    run 0x86C04002 [(1#5, 0xFFFFFFFF#32), (2#5, 0xFFFFFFFF#32)] 0b0001#4 3#5 =
      some (0xFFFFFFFF#32, 0x00001004#32, nzvc 0b1001#4, none) := by decide

/-- 2.2. -/
theorem test_subxcc_borrow_out :
    run 0x86E04002 [(1#5, 0x00000000#32), (2#5, 0xFFFFFFFF#32)] 0b0001#4 3#5 =
      some (0x00000000#32, 0x00001004#32, nzvc 0b0101#4, none) := by decide

/-- 2.3. -/
theorem test_umul_low_halves :
    run 0x86504002 [(1#5, 0x0001FFFF#32), (2#5, 0x0002FFFF#32)] 0b1010#4 3#5 =
      some (0xFFFE0001#32, 0x00001004#32, nzvc 0b1010#4, none) := by decide

/-- 2.3. -/
theorem test_smul_signs :
    run 0x86584002 [(1#5, 0x00008000#32), (2#5, 0x00007FFF#32)] 0b1010#4 3#5 =
      some (0xC0008000#32, 0x00001004#32, nzvc 0b1010#4, none) := by decide

/-- 2.3. -/
theorem test_umulcc :
    run 0x86D04002 [(1#5, 0x0000FFFF#32), (2#5, 0x0000FFFF#32)] 0b0111#4 3#5 =
      some (0xFFFE0001#32, 0x00001004#32, nzvc 0b1000#4, none) := by decide

/-- 2.3. -/
theorem test_smulcc :
    run 0x86D84002 [(1#5, 0x0000FFFF#32), (2#5, 0x00000001#32)] 0b0111#4 3#5 =
      some (0xFFFFFFFF#32, 0x00001004#32, nzvc 0b1000#4, none) := by decide

/-- 2.3. -/
theorem test_udiv_unsigned :
    run 0x86707FFF [(1#5, 0xFFFFFFFE#32)] 0b1010#4 3#5 =
      some (0x00000000#32, 0x00001004#32, nzvc 0b1010#4, none) := by decide

/-- 2.3. -/
theorem test_sdiv_toward_zero :
    run 0x86784002 [(1#5, 0xFFFFFFF9#32), (2#5, 0x00000002#32)] 0b1010#4 3#5 =
      some (0xFFFFFFFD#32, 0x00001004#32, nzvc 0b1010#4, none) := by decide

/-- 2.3. -/
theorem test_udivcc :
    run 0x86F04002 [(1#5, 0x80000000#32), (2#5, 0x00000001#32)] 0b0111#4 3#5 =
      some (0x80000000#32, 0x00001004#32, nzvc 0b1000#4, none) := by decide

/-- 2.3. -/
theorem test_sdivcc :
    run 0x86F84002 [(1#5, 0x00000064#32), (2#5, 0xFFFFFFF9#32)] 0b0111#4 3#5 =
      some (0xFFFFFFF2#32, 0x00001004#32, nzvc 0b1000#4, none) := by decide

/-- 2.3. -/
theorem test_udiv_by_zero :
    run 0x86706000 [(1#5, 0x00000009#32), (3#5, 0x00000077#32)] 0b1010#4 3#5 =
      some (0x00000077#32, 0x00001000#32, nzvc 0b1010#4, some (.divisionByZero 0x00001000#32)) := by decide

/-- 2.3. -/
theorem test_sdiv_by_zero :
    run 0x86784002 [(1#5, 0xFFFFFFFF#32), (3#5, 0x00000077#32)] 0b1010#4 3#5 =
      some (0x00000077#32, 0x00001000#32, nzvc 0b1010#4, some (.divisionByZero 0x00001000#32)) := by decide

/-- 2.3. -/
theorem test_udivcc_by_zero :
    run 0x86F04002 [(1#5, 0x00000064#32), (3#5, 0x00000077#32)] 0b1010#4 3#5 =
      some (0x00000077#32, 0x00001000#32, nzvc 0b1010#4, some (.divisionByZero 0x00001000#32)) := by decide

/-- 2.3: also with rd = 0. -/
theorem test_sdivcc_by_zero :
    run 0x80F84002 [(1#5, 0x00000001#32)] 0b0101#4 0#5 =
      some (0x00000000#32, 0x00001000#32, nzvc 0b0101#4, some (.divisionByZero 0x00001000#32)) := by decide

/-- 2.4. -/
theorem test_sll_count_modulo_32 :
    run 0x87284002 [(1#5, 0x80000001#32), (2#5, 0xFFFFFFE4#32)] 0b1010#4 3#5 =
      some (0x00000010#32, 0x00001004#32, nzvc 0b1010#4, none) := by decide

/-- 2.4. -/
theorem test_srl_count_modulo_32 :
    run 0x87304002 [(1#5, 0x80000001#32), (2#5, 0xFFFFFFE4#32)] 0b1010#4 3#5 =
      some (0x08000000#32, 0x00001004#32, nzvc 0b1010#4, none) := by decide

/-- 2.4. -/
theorem test_sra_rounds_down :
    run 0x87386001 [(1#5, 0xFFFFFFF9#32)] 0b1010#4 3#5 =
      some (0xFFFFFFFC#32, 0x00001004#32, nzvc 0b1010#4, none) := by decide

/-- 2.5: the address wraps modulo 2^32. -/
theorem test_ld_wraps :
    runMem 0xC6004142 [(1#5, 0xFFFFFFFC#32), (2#5, 0x00002008#32)] 0b1010#4 0x00002004#32 0x0BADCAFE#32 3#5 =
      some (0x0BADCAFE#32, 0x00001004#32, nzvc 0b1010#4, none) := by decide

/-- 2.5: misaligned and outside, alignment is checked first. -/
theorem test_ld_alignment_first :
    run 0xC6004142 [(1#5, 0x00002000#32), (2#5, 0x00001001#32), (3#5, 0x00000077#32)] 0b1010#4 3#5 =
      some (0x00000077#32, 0x00001000#32, nzvc 0b1010#4, some (.memAddressNotAligned 0x00003001#32)) := by decide

/-- 2.5. -/
theorem test_st_outside :
    run 0xC6204142 [(1#5, 0x00002FFC#32), (2#5, 0x00000004#32), (3#5, 0x00000005#32)] 0b1010#4 3#5 =
      some (0x00000005#32, 0x00001000#32, nzvc 0b1010#4, some (.dataAccess 0x00003000#32)) := by decide

/-- 2.5: ST of 0xDEADBEEF at 0x2008, byte by byte in big-endian order (20_memory.md R55); the bytes on
both sides stay. -/
theorem test_st_bytes :
    ∃ t, step (((startWith [(1#5, 0x2000#32), (3#5, 0xDEADBEEF#32)] (nzvc 0b1010#4)).storeWord
        0x2004#32 0x11111111#32).withFetchWord 32 0xC6206008) = .next t ∧
      [0x2007, 0x2008, 0x2009, 0x200A, 0x200B].map t.dataByte =
        [0x11#8, 0xDE#8, 0xAD#8, 0xBE#8, 0xEF#8] ∧
      t.pc = 0x1004#32 ∧ t.faulted = none := ⟨_, rfl, by decide⟩

/-- 95_test_vectors.md, the branch table: not taken. -/
theorem test_bn :
    run 0x00800005 [] 0b1111#4 0#5 = some (0x00000000#32, 0x00001004#32, nzvc 0b1111#4, none) := by decide

/-- 95_test_vectors.md, the branch table: taken and not taken. -/
theorem test_be :
    run 0x02800005 [] 0b0100#4 0#5 = some (0x00000000#32, 0x00001014#32, nzvc 0b0100#4, none) ∧
    run 0x02800005 [] 0b1011#4 0#5 = some (0x00000000#32, 0x00001004#32, nzvc 0b1011#4, none) := by decide

/-- 95_test_vectors.md, the branch table: taken and not taken. -/
theorem test_ble :
    run 0x04800005 [] 0b1000#4 0#5 = some (0x00000000#32, 0x00001014#32, nzvc 0b1000#4, none) ∧
    run 0x04800005 [] 0b1010#4 0#5 = some (0x00000000#32, 0x00001004#32, nzvc 0b1010#4, none) := by decide

/-- 95_test_vectors.md, the branch table: taken and not taken. -/
theorem test_bl :
    run 0x06800005 [] 0b0010#4 0#5 = some (0x00000000#32, 0x00001014#32, nzvc 0b0010#4, none) ∧
    run 0x06800005 [] 0b1010#4 0#5 = some (0x00000000#32, 0x00001004#32, nzvc 0b1010#4, none) := by decide

/-- 95_test_vectors.md, the branch table: taken and not taken. -/
theorem test_bleu :
    run 0x08800005 [] 0b0001#4 0#5 = some (0x00000000#32, 0x00001014#32, nzvc 0b0001#4, none) ∧
    run 0x08800005 [] 0b1010#4 0#5 = some (0x00000000#32, 0x00001004#32, nzvc 0b1010#4, none) := by decide

/-- 95_test_vectors.md, the branch table: taken and not taken. -/
theorem test_bcs :
    run 0x0A800005 [] 0b0001#4 0#5 = some (0x00000000#32, 0x00001014#32, nzvc 0b0001#4, none) ∧
    run 0x0A800005 [] 0b1110#4 0#5 = some (0x00000000#32, 0x00001004#32, nzvc 0b1110#4, none) := by decide

/-- 95_test_vectors.md, the branch table: taken and not taken. -/
theorem test_bneg :
    run 0x0C800005 [] 0b1000#4 0#5 = some (0x00000000#32, 0x00001014#32, nzvc 0b1000#4, none) ∧
    run 0x0C800005 [] 0b0111#4 0#5 = some (0x00000000#32, 0x00001004#32, nzvc 0b0111#4, none) := by decide

/-- 95_test_vectors.md, the branch table: taken and not taken. -/
theorem test_bvs :
    run 0x0E800005 [] 0b0010#4 0#5 = some (0x00000000#32, 0x00001014#32, nzvc 0b0010#4, none) ∧
    run 0x0E800005 [] 0b1101#4 0#5 = some (0x00000000#32, 0x00001004#32, nzvc 0b1101#4, none) := by decide

/-- 95_test_vectors.md, the branch table: taken. -/
theorem test_ba :
    run 0x10800005 [] 0b0000#4 0#5 = some (0x00000000#32, 0x00001014#32, nzvc 0b0000#4, none) := by decide

/-- 95_test_vectors.md, the branch table: taken and not taken. -/
theorem test_bne :
    run 0x12800005 [] 0b1011#4 0#5 = some (0x00000000#32, 0x00001014#32, nzvc 0b1011#4, none) ∧
    run 0x12800005 [] 0b0100#4 0#5 = some (0x00000000#32, 0x00001004#32, nzvc 0b0100#4, none) := by decide

/-- 95_test_vectors.md, the branch table: taken and not taken. -/
theorem test_bg :
    run 0x14800005 [] 0b1010#4 0#5 = some (0x00000000#32, 0x00001014#32, nzvc 0b1010#4, none) ∧
    run 0x14800005 [] 0b1000#4 0#5 = some (0x00000000#32, 0x00001004#32, nzvc 0b1000#4, none) := by decide

/-- 95_test_vectors.md, the branch table: taken and not taken. -/
theorem test_bge :
    run 0x16800005 [] 0b1010#4 0#5 = some (0x00000000#32, 0x00001014#32, nzvc 0b1010#4, none) ∧
    run 0x16800005 [] 0b0010#4 0#5 = some (0x00000000#32, 0x00001004#32, nzvc 0b0010#4, none) := by decide

/-- 95_test_vectors.md, the branch table: taken and not taken. -/
theorem test_bgu :
    run 0x18800005 [] 0b1010#4 0#5 = some (0x00000000#32, 0x00001014#32, nzvc 0b1010#4, none) ∧
    run 0x18800005 [] 0b0100#4 0#5 = some (0x00000000#32, 0x00001004#32, nzvc 0b0100#4, none) := by decide

/-- 95_test_vectors.md, the branch table: taken and not taken. -/
theorem test_bcc :
    run 0x1A800005 [] 0b1110#4 0#5 = some (0x00000000#32, 0x00001014#32, nzvc 0b1110#4, none) ∧
    run 0x1A800005 [] 0b0001#4 0#5 = some (0x00000000#32, 0x00001004#32, nzvc 0b0001#4, none) := by decide

/-- 95_test_vectors.md, the branch table: taken and not taken. -/
theorem test_bpos :
    run 0x1C800005 [] 0b0111#4 0#5 = some (0x00000000#32, 0x00001014#32, nzvc 0b0111#4, none) ∧
    run 0x1C800005 [] 0b1000#4 0#5 = some (0x00000000#32, 0x00001004#32, nzvc 0b1000#4, none) := by decide

/-- 95_test_vectors.md, the branch table: taken and not taken. -/
theorem test_bvc :
    run 0x1E800005 [] 0b1101#4 0#5 = some (0x00000000#32, 0x00001014#32, nzvc 0b1101#4, none) ∧
    run 0x1E800005 [] 0b0010#4 0#5 = some (0x00000000#32, 0x00001004#32, nzvc 0b0010#4, none) := by decide

/-- 2.7. -/
theorem test_ba_backward :
    run 0x10BFFFFE [] 0b0000#4 0#5 =
      some (0x00000000#32, 0x00000FF8#32, nzvc 0b0000#4, none) := by decide

/-- 2.8: the link is the address of the CALL. -/
theorem test_call_backward :
    run 0x7FFFFFFF [] 0b1010#4 15#5 =
      some (0x00001000#32, 0x00000FFC#32, nzvc 0b1010#4, none) := by decide

/-- 2.8: rd = rs1. -/
theorem test_jmpl_reads_before_it_writes :
    run 0x83C06008 [(1#5, 0x00002000#32)] 0b1010#4 1#5 =
      some (0x00001000#32, 0x00002008#32, nzvc 0b1010#4, none) := by decide

/-- 2.8. -/
theorem test_jmpl_misaligned :
    run 0x87C04002 [(1#5, 0x00002000#32), (2#5, 0x00000002#32), (3#5, 0x00000077#32)] 0b1010#4 3#5 =
      some (0x00000077#32, 0x00001000#32, nzvc 0b1010#4, some (.memAddressNotAligned 0x00002002#32)) := by decide

/-- 2.8. -/
theorem test_retl_wraps :
    run 0x81C3E008 [(15#5, 0xFFFFFFF8#32)] 0b1010#4 15#5 =
      some (0xFFFFFFF8#32, 0x00000000#32, nzvc 0b1010#4, none) := by decide

/-- 2.8. -/
theorem test_retl_misaligned :
    run 0x81C3E008 [(15#5, 0x00001002#32)] 0b1010#4 15#5 =
      some (0x00001002#32, 0x00001000#32, nzvc 0b1010#4, some (.memAddressNotAligned 0x0000100A#32)) := by decide

/-- 2.9. -/
theorem test_sethi :
    run 0x07048D15 [(3#5, 0x55555555#32)] 0b1010#4 3#5 =
      some (0x12345400#32, 0x00001004#32, nzvc 0b1010#4, none) := by decide

/-- SDIVcc of -2^31 by -1 completes, whatever value and flags the draw gives (R169): pc advances, no
fault, x[4] stays, and one draw is counted. -/
theorem test_sdivcc_overflow_completes :
    ∃ t, step ((startWith [(1#5, 0x80000000#32), (2#5, 0xFFFFFFFF#32), (4#5, 0x77#32)]
        (nzvc 0b0000#4)).withFetchWord 32 0x86F84002) = .next t ∧
      t.pc = 0x1004#32 ∧ t.faulted = none ∧ t.readReg 4#5 = 0x77#32 ∧ t.draws = 1 := ⟨_, rfl, by decide⟩

/-! ## Faults of the step, reset and the run -/

/-- A state with pc at `a`. -/
def startAt (a : Word) : State := start.setPc a

/-- R273 (1): a misaligned pc; pc stays. -/
theorem test_step_misaligned_pc :
    seen 1#5 (step (startAt 0x1002#32)) =
      some (0#32, 0x1002#32, nzvc 0#4, some (.memAddressNotAligned 0x1002#32)) := by decide

/-- R273 (2): a pc outside MEM_REGIONS. -/
theorem test_step_pc_outside :
    seen 1#5 (step (startAt 0x3000#32)) =
      some (0#32, 0x3000#32, nzvc 0#4, some (.instructionAccess 0x3000#32)) := by decide

/-- 2.10, R273 (3): an unassigned word. -/
theorem test_step_unassigned_word :
    run 0x80480000 [] 0b1010#4 1#5 =
      some (0#32, 0x1000#32, nzvc 0b1010#4, some (.illegalInstruction 0x80480000#32)) := by decide

/-- A faulted state has no successor (60_exceptions.md R270). -/
theorem test_faulted_stops :
    step { start with faulted := some (.dataAccess 4#32) } = .fault (.dataAccess 4#32) := rfl

/-- After reset the fetch is at RESET_PC and the word placed there is the first instruction run. -/
theorem test_reset_runs_the_placed_word :
    seen 3#5 (step (State.reset.withFetchWord 32 0x07048D15)) =
      some (0x12345400#32, 0x4#32, nzvc 0#4, none) := by decide

/-- Under MEM_ORG = split the word placed is fetched from the program memory and an LD of its address
does not see it (20_memory.md R64). -/
theorem test_split_fetches_from_program_memory :
    let s := { start with params := { start.params with memOrg := .split } }
    seen 3#5 (step (s.withFetchWord 32 0x07048D15)) = some (0x12345400#32, 0x1004#32, nzvc 0#4, none) ∧
      (s.withFetchWord 32 0x07048D15).mem = [] := by decide

/-- A run ends at a self-loop, at a stop address, and at a fault (70_reset_and_hazards.md R306). -/
theorem test_run_ends :
    let s := { start.withFetchWord 32 0x10800000 with params := { start.params with endOfRun := .selfLoop } }
    selfLoops s = true ∧ runFor 5 s = s ∧
      runEnded { start with params := { start.params with endOfRun := .stopAt 0x1000#32 } } = true ∧
      runEnded (start.withFetchWord 32 0x10800000) = false ∧
      (runFor 5 (startAt 0x3000#32)).faulted = some (.instructionAccess 0x3000#32) := by decide

/-- The assembler text of the spec's examples (30_encoding.md R98). -/
theorem test_asm_text :
    asmText (.st 3#5 1#5 (.imm 0x1FF8#13)) = "ST [x1+-8],x3" ∧
    asmText (.jmpl 3#5 1#5 (.reg 2#5)) = "JMPL x3,x1+x2" ∧ asmText (.bne 0x3FFFFC#22) = "BNE -4" := by decide

/-! ## Witnesses: the hypotheses of the statements are met -/

/-- A state about to run word w, with x[1] = 0x2000, x[2] = 5, x[3] = 0xDEADBEEF, x[4] = -1. -/
def about (w : Nat) : State :=
  (startWith [(1#5, 0x2000#32), (2#5, 5#32), (3#5, 0xDEADBEEF#32), (4#5, 0xFFFFFFFF#32), (5#5, 0x80000000#32)]
    (nzvc 0b1011#4)).withFetchWord 32 w

/-- The state `about` to run NOP. -/
def some1 : State := about 0x80000000

/-- `some1` under MEM_ORG = split. -/
def split1 : State := { some1 with params := { some1.params with memOrg := .split } }

theorem test_witness_DecodeOfEncodeIsTheInstruction :
    Instr.wf (.jmpl 0#5 15#5 (.imm 9#13)) = true ∧ Instr.wf .retl = true := by decide

theorem test_witness_DecodedInstructionsAreWellFormed :
    decode 0x81C3E008#32 = .instr .retl ∧
    decode 0x81C3E009#32 = .instr (.jmpl 0#5 15#5 (.imm 9#13)) := by decide

theorem test_witness_EncodeOfDecodeIsTheWord :
    (opField 0x06800005#32 = 0b00#2 ∧ decode 0x06800005#32 = .instr (.bl 5#22)) ∧
    (opField 0x40000002#32 = 0b01#2 ∧ decode 0x40000002#32 = .instr (.call 2#30)) ∧
    (iField 0x86006FFF#32 = true ∧ decode 0x86006FFF#32 = .instr (.add 3#5 1#5 (.imm 0xFFF#13))) ∧
    decode 0xC6005FE2#32 = .instr (.ld 3#5 1#5 (.reg 2#5)) := by decide

theorem test_witness_FillBitsSelectNothing :
    opField 0xC6004142#32 = 0b11#2 ∧ iField 0xC6004142#32 = false ∧
    (∀ k, k < 5 ∨ 12 < k → (0xC6005FE2#32).getLsbD k = (0xC6004142#32).getLsbD k) ∧
    decode 0xC6004142#32 = .instr (.ld 3#5 1#5 (.reg 2#5)) := by
  refine ⟨by decide, by decide, fun k hk => ?_, by decide⟩
  by_cases h : k < 32
  · exact (by decide : ∀ k < 32, k < 5 ∨ 12 < k →
      (0xC6005FE2#32).getLsbD k = (0xC6004142#32).getLsbD k) k h hk
  · rw [BitVec.getLsbD_of_ge _ _ (by omega), BitVec.getLsbD_of_ge _ _ (by omega)]

theorem test_witness_AcceptedWordsAreTheTableRows :
    decode 0x86004002#32 = .instr (.add 3#5 1#5 (.reg 2#5)) ∧
    ∃ r ∈ opcodeRows, r.matchesWord 0x7FFFFFFF#32 = true := by decide

theorem test_witness_RowsDoNotOverlap :
    arithRow "ADD" 0x00#6 ∈ opcodeRows ∧ (arithRow "ADD" 0x00#6).matchesWord 0x86004002#32 = true ∧
    arithRow "JMPL" 0x38#6 ∈ opcodeRows ∧ (arithRow "JMPL" 0x38#6).matchesWord retlWord = true ∧
    (⟨"RETL", 0xFFFFFFFF#32, 0x81C3E008#32⟩ : OpcodeRow) ∈ opcodeRows ∧
    (⟨"RETL", 0xFFFFFFFF#32, 0x81C3E008#32⟩ : OpcodeRow).matchesWord retlWord = true := by decide

theorem test_witness_UnassignedWordsAreIllegal :
    (about 0x80480000).faulted = none ∧ isAligned (about 0x80480000).pc = true ∧
    (about 0x80480000).inRegions (about 0x80480000).pc = true ∧
    (∀ r ∈ opcodeRows, r.matchesWord (about 0x80480000).fetchWord = false) ∧
    ∀ x ∈ [0x20#6, 0x24#6, 0x28#6, 0x37#6, 0x39#6, 0x3F#6], ∀ r ∈ opcodeRows,
      r.matchesWord (0b10#2 ++ 0#5 ++ x ++ 0#19) = false := by decide

theorem test_witness_AnnulledBranchIsIllegal :
    opField 0x30800003#32 = 0b00#2 ∧ op2Field 0x30800003#32 = 0b010#3 ∧
    (0x30800003#32).getLsbD 29 = true ∧ (about 0x30800003).faulted = none ∧
    isAligned (about 0x30800003).pc = true ∧ (about 0x30800003).inRegions (about 0x30800003).pc = true ∧
    (about 0x30800003).fetchWord = 0x30800003#32 := by decide

theorem test_witness_StepRunsTheDecodedInstruction :
    (about 0xC6204142).faulted = none ∧ isAligned (about 0xC6204142).pc = true ∧
    (about 0xC6204142).inRegions (about 0xC6204142).pc = true ∧
    decode (about 0xC6204142).fetchWord = .instr (.st 3#5 1#5 (.reg 2#5)) := by decide

/-- Clauses (1) and (2), with pc just outside the regions on both sides. -/
theorem test_witness_ChecksComeInOrder_fetch :
    some1.faulted = none ∧ isAligned 0x1001#32 = false ∧ isAligned 0x1003#32 = false ∧
    isAligned 0x0FFC#32 = true ∧ some1.inRegions 0x0FFC#32 = false ∧
    isAligned 0x3000#32 = true ∧ some1.inRegions 0x3000#32 = false ∧
    isAligned some1.pc = true ∧ some1.inRegions some1.pc = true := by decide

/-- Clause (3). -/
theorem test_witness_ChecksComeInOrder_decode (i : Instr) : decode (about 0xC0080000).fetchWord ≠ .instr i := by
  rw [show decode (about 0xC0080000).fetchWord = .illegal (.unassigned 0xC0080000#32) by decide]
  simp

/-- Clause (4), LD and ST: a misaligned address, and the aligned ones just outside. -/
theorem test_witness_ChecksComeInOrder_memory :
    decode (about 0xC6004142).fetchWord = .instr (.ld 3#5 1#5 (.reg 2#5)) ∧
    isAligned ((about 0xC6004142).address 1#5 (.reg 2#5)) = false ∧
    decode (about 0xC0206FFC).fetchWord = .instr (.st 0#5 1#5 (.imm 0x0FFC#13)) ∧
    decode (about 0xC6207000).fetchWord = .instr (.st 3#5 1#5 (.imm 0x1000#13)) ∧
    decode (about 0xC6003FFC).fetchWord = .instr (.ld 3#5 0#5 (.imm 0x1FFC#13)) ∧
    isAligned ((about 0xC6003FFC).address 0#5 (.imm 0x1FFC#13)) = true ∧
    (about 0xC6003FFC).inRegions ((about 0xC6003FFC).address 0#5 (.imm 0x1FFC#13)) = false ∧
    decode (about 0xC6202000).fetchWord = .instr (.st 3#5 0#5 (.imm 0#13)) ∧
    isAligned ((about 0xC6202000).address 0#5 (.imm 0#13)) = true ∧
    (about 0xC6202000).inRegions ((about 0xC6202000).address 0#5 (.imm 0#13)) = false := by decide

/-- Clause (4), JMPL, RETL and the divides. -/
theorem test_witness_ChecksComeInOrder_others :
    decode (about 0x87C06003).fetchWord = .instr (.jmpl 3#5 1#5 (.imm 3#13)) ∧
    isAligned ((about 0x87C06003).address 1#5 (.imm 3#13)) = false ∧
    decode ((about 0x81C3E008).writeReg 15#5 1#32).fetchWord = .instr .retl ∧
    isAligned (((about 0x81C3E008).writeReg 15#5 1#32).readReg 15#5 + 8#32) = false ∧
    decode (about 0x86706000).fetchWord = .instr (.udiv 3#5 1#5 (.imm 0#13)) ∧
    decode (about 0x86784000).fetchWord = .instr (.sdiv 3#5 1#5 (.reg 0#5)) ∧
    decode (about 0x86F06000).fetchWord = .instr (.udivcc 3#5 1#5 (.imm 0#13)) ∧
    decode (about 0x86F86000).fetchWord = .instr (.sdivcc 3#5 1#5 (.imm 0#13)) ∧
    some1.operand2 (.imm 0#13) = 0#32 ∧ some1.operand2 (.reg 0#5) = 0#32 := by decide

theorem test_witness_UnfaultedStatesHaveASuccessor : some1.faulted = none := by decide

theorem test_witness_FaultingStepWritesNothingElse :
    (startAt 0x3000#32).faulted = none ∧ ∃ t, step (startAt 0x3000#32) = .next t ∧
      t.faulted = some (.instructionAccess 0x3000#32) := ⟨by decide, _, rfl, by decide⟩

theorem test_witness_OnlyListedInstructionsFault_never :
    neverFaults (.call 2#30) = true ∧ ∃ t, exec (.call 2#30) some1 = .next t := ⟨by decide, _, rfl⟩

theorem test_witness_OnlyListedInstructionsFault_memory :
    some1.faulted = none ∧
    (∃ t, exec (.ld 3#5 1#5 (.imm 1#13)) some1 = .next t ∧ t.faulted = some (.memAddressNotAligned 0x2001#32)) ∧
    (∃ t, exec (.ld 3#5 0#5 (.imm 0#13)) some1 = .next t ∧ t.faulted = some (.dataAccess 0#32)) ∧
    (∃ t, exec (.st 3#5 1#5 (.imm 1#13)) some1 = .next t ∧ t.faulted = some (.memAddressNotAligned 0x2001#32)) ∧
    (∃ t, exec (.st 3#5 0#5 (.imm 0#13)) some1 = .next t ∧ t.faulted = some (.dataAccess 0#32)) :=
  ⟨by decide, ⟨_, rfl, by decide⟩, ⟨_, rfl, by decide⟩, ⟨_, rfl, by decide⟩, ⟨_, rfl, by decide⟩⟩

theorem test_witness_OnlyListedInstructionsFault_others :
    (∃ t, exec (.jmpl 3#5 1#5 (.imm 1#13)) some1 = .next t ∧ t.faulted = some (.memAddressNotAligned 0x2001#32)) ∧
    (∃ t, exec .retl (some1.writeReg 15#5 1#32) = .next t ∧ t.faulted = some (.memAddressNotAligned 9#32)) ∧
    (∃ t, exec (.udiv 3#5 1#5 (.imm 0#13)) some1 = .next t ∧ t.faulted = some (.divisionByZero 0x1000#32)) ∧
    (∃ t, exec (.sdiv 3#5 1#5 (.imm 0#13)) some1 = .next t ∧ t.faulted = some (.divisionByZero 0x1000#32)) ∧
    (∃ t, exec (.udivcc 3#5 1#5 (.imm 0#13)) some1 = .next t ∧ t.faulted = some (.divisionByZero 0x1000#32)) ∧
    (∃ t, exec (.sdivcc 3#5 1#5 (.imm 0#13)) some1 = .next t ∧ t.faulted = some (.divisionByZero 0x1000#32)) :=
  ⟨⟨_, rfl, by decide⟩, ⟨_, rfl, by decide⟩, ⟨_, rfl, by decide⟩, ⟨_, rfl, by decide⟩, ⟨_, rfl, by decide⟩,
   ⟨_, rfl, by decide⟩⟩

theorem test_witness_OnlyCcInstructionsChangeIcc :
    writesIcc (.sra 3#5 4#5 (.imm 1#13)) = false ∧ ∃ t, exec (.sra 3#5 4#5 (.imm 1#13)) some1 = .next t :=
  ⟨by decide, _, rfl⟩

/-- An instruction without cc that reads nothing and one that reads c; a cc instruction of each kind. -/
theorem test_witness_FlagsNotReadDoNotShow :
    some1.faulted = none ∧ (nzvc 0b0101#4).c = some1.icc.c ∧
    (iccRead (.ld 3#5 1#5 (.imm 0#13)) = .nothing ∧ writesIcc (.ld 3#5 1#5 (.imm 0#13)) = false ∧
      ∃ t, exec (.ld 3#5 1#5 (.imm 0#13)) some1 = .next t) ∧
    (iccRead (.addx 3#5 1#5 (.reg 4#5)) = .carryOnly ∧ writesIcc (.addx 3#5 1#5 (.reg 4#5)) = false ∧
      ∃ t, exec (.addx 3#5 1#5 (.reg 4#5)) some1 = .next t) ∧
    (iccRead (.orcc 3#5 1#5 (.reg 4#5)) = .nothing ∧ writesIcc (.orcc 3#5 1#5 (.reg 4#5)) = true ∧
      ∃ t, exec (.orcc 3#5 1#5 (.reg 4#5)) some1 = .next t ∧ t.faulted = none) ∧
    (iccRead (.subxcc 3#5 1#5 (.reg 4#5)) = .carryOnly ∧ writesIcc (.subxcc 3#5 1#5 (.reg 4#5)) = true ∧
      ∃ t, exec (.subxcc 3#5 1#5 (.reg 4#5)) some1 = .next t ∧ t.faulted = none) :=
  ⟨by decide, by decide, ⟨rfl, rfl, _, rfl⟩, ⟨rfl, rfl, _, rfl⟩, ⟨rfl, rfl, _, rfl, by decide⟩,
   ⟨rfl, rfl, _, rfl, by decide⟩⟩

theorem test_witness_OtherRegistersKeepTheirValue :
    destReg (.call 2#30) ≠ some 14#5 ∧ destReg (.st 3#5 1#5 (.imm 0#13)) ≠ some 3#5 ∧
    (∃ t, exec (.call 2#30) some1 = .next t) ∧ ∃ t, exec (.st 3#5 1#5 (.imm 0#13)) some1 = .next t :=
  ⟨by decide, by decide, ⟨_, rfl⟩, _, rfl⟩

theorem test_witness_RegisterZeroIsHardwired :
    destReg (.ld 0#5 1#5 (.imm 0#13)) = some 0#5 ∧ ∃ t, exec (.ld 0#5 1#5 (.imm 0#13)) some1 = .next t :=
  ⟨rfl, _, rfl⟩

/-- An ST to 0x2000: the bytes on both sides are none of its four, the first and last are. -/
theorem test_witness_OtherBytesKeepTheirValue :
    (∃ t, exec (.st 3#5 1#5 (.imm 0#13)) some1 = .next t) ∧
    ¬ storesTo (.st 3#5 1#5 (.imm 0#13)) some1 0x1FFF ∧ ¬ storesTo (.st 3#5 1#5 (.imm 0#13)) some1 0x2004 ∧
    storesTo (.st 3#5 1#5 (.imm 0#13)) some1 0x2000 ∧ storesTo (.st 3#5 1#5 (.imm 0#13)) some1 0x2003 := by
  have key : ∀ a, storesTo (.st 3#5 1#5 (.imm 0#13)) some1 a ↔ 0x2000 ≤ a ∧ a ≤ 0x2003 := by
    have ha : (some1.address 1#5 (.imm 0#13)).toNat = 0x2000 := by decide
    intro a
    constructor
    · rintro ⟨rd, rs1, o, h, h1, h2⟩
      cases h
      rw [ha] at h1 h2
      exact ⟨h1, h2⟩
    · rintro ⟨h1, h2⟩
      exact ⟨3#5, 1#5, .imm 0#13, rfl, by rw [ha]; exact h1, by rw [ha]; exact h2⟩
  exact ⟨⟨_, rfl⟩, by simp [key], by simp [key], by simp [key], by simp [key]⟩

theorem test_witness_ParametersAndProgramMemoryAreFixed : ∃ t, step some1 = .next t := ⟨_, rfl⟩

/-- A state with words in memory that meets the invariant and steps by an ST. -/
theorem test_witness_StepKeepsTheInvariant :
    (about 0xC6206000).Inv ∧ ∃ t, step (about 0xC6206000) = .next t ∧ t.faulted = none :=
  ⟨⟨by decide, by decide, by decide, by decide, by decide⟩, _, rfl, by decide⟩

theorem test_witness_PcStaysAligned : isAligned some1.pc = true ∧ ∃ t, step some1 = .next t :=
  ⟨by decide, _, rfl⟩

/-- Text at the first words of the regions. -/
def text1 : Image := [(0x1000#32, 0x80000000#32), (0x1004#32, 0x10800000#32)]

/-- Data at the last word of the regions. -/
def data1 : Image := [(0x2FFC#32, 0xCAFEF00D#32)]

/-- Data for split, at an address that the text has too. -/
def data2 : Image := [(0x1000#32, 0xCAFEF00D#32)]

/-- Under unified: distinct addresses, each of which fits. -/
theorem test_witness_StateAtTheFirstFetch_unified :
    start.params.memOrg = .unified ∧ ((text1 ++ data1).map Prod.fst).Nodup ∧
    ∀ e ∈ text1 ++ data1, imageEntryFits start.params e = true :=
  ⟨by decide, by decide, by simp [text1, data1, imageEntryFits, isAligned, holdsWordAt, start]⟩

/-- Under split: one address in both images, distinct in each, each of which fits. -/
theorem test_witness_StateAtTheFirstFetch_split :
    split1.params.memOrg = .split ∧ (text1.map Prod.fst).Nodup ∧ (data2.map Prod.fst).Nodup ∧
    ∀ e ∈ text1 ++ data2, imageEntryFits { start.params with memOrg := .split } e = true :=
  ⟨by decide, by decide, by decide, by simp [text1, data2, imageEntryFits, isAligned, holdsWordAt, start]⟩

/-- A register other than x[0], and addresses just beside the loaded words. -/
theorem test_witness_StateAtTheFirstFetch_unloaded :
    (31#5 : RegNum) ≠ 0#5 ∧
    (∀ e ∈ text1 ++ data1, 0x0FFF < e.1.toNat ∨ e.1.toNat + 3 < 0x0FFF) ∧
    (∀ e ∈ text1 ++ data1, 0x2FFB < e.1.toNat ∨ e.1.toNat + 3 < 0x2FFB) ∧
    (∀ e ∈ text1, 0x1008 < e.1.toNat ∨ e.1.toNat + 3 < 0x1008) ∧
    (∀ e ∈ data2, 0x1004 < e.1.toNat ∨ e.1.toNat + 3 < 0x1004) := by
  simp [text1, data1, data2]

theorem test_witness_BootMeetsTheInvariant : isAligned Config.defaultParams.resetPc = true := by decide

theorem test_witness_OperandTwoIsRegisterOrConstant :
    (opField 0x87C07FFC#32 = 0b10#2 ∧ decode 0x87C07FFC#32 = .instr (.jmpl 3#5 1#5 (.imm 0x1FFC#13))) ∧
    (opField 0xC6004142#32 = 0b11#2 ∧ decode 0xC6004142#32 = .instr (.ld 3#5 1#5 (.reg 2#5))) := by decide

theorem test_witness_AddccThenAddxAddsDoubleWords :
    ∃ t u, exec (.addcc 8#5 4#5 (.reg 4#5)) some1 = .next t ∧ exec (.addx 9#5 5#5 (.reg 2#5)) t = .next u ∧
      t.icc.c = true ∧ u.readReg 9#5 = 0x80000006#32 := ⟨_, _, rfl, rfl, by decide, by decide⟩

theorem test_witness_SubccThenSubxSubtractsDoubleWords :
    ∃ t u, exec (.subcc 8#5 2#5 (.reg 4#5)) some1 = .next t ∧ exec (.subx 9#5 5#5 (.reg 2#5)) t = .next u ∧
      t.icc.c = true ∧ u.readReg 9#5 = 0x7FFFFFFA#32 := ⟨_, _, rfl, rfl, by decide, by decide⟩

theorem test_witness_UnsignedDivideGivesTheFloor :
    some1.operand2 (.imm 1#13) ≠ 0#32 ∧ some1.operand2 (.reg 4#5) ≠ 0#32 := by decide

/-- -2^31 by 1, and -1 by -1: both beside the overflow case. -/
theorem test_witness_SignedDivideRoundsTowardZero :
    (some1.operand2 (.imm 1#13) ≠ 0#32 ∧
      ¬ ((some1.readReg 5#5).toInt = -2 ^ 31 ∧ (some1.operand2 (.imm 1#13)).toInt = -1)) ∧
    (some1.operand2 (.reg 4#5) ≠ 0#32 ∧
      ¬ ((some1.readReg 4#5).toInt = -2 ^ 31 ∧ (some1.operand2 (.reg 4#5)).toInt = -1)) := by decide

theorem test_witness_SignedDivideOverflowCompletes :
    some1.readReg 5#5 = 0x80000000#32 ∧ some1.operand2 (.reg 4#5) = 0xFFFFFFFF#32 := by decide

theorem test_witness_DivideByZeroFaults :
    some1.operand2 (.imm 0#13) = 0#32 ∧ some1.operand2 (.reg 0#5) = 0#32 := by decide

/-- The first and the last word of the regions. -/
theorem test_witness_LoadReadsTheWord :
    (some1.readReg 1#5 + some1.operand2 (.imm 0x1000#13)).toNat % 4 = 0 ∧
    some1.inRegions (some1.readReg 1#5 + some1.operand2 (.imm 0x1000#13)) = true ∧
    (some1.readReg 1#5 + some1.operand2 (.imm 0xFFC#13)).toNat % 4 = 0 ∧
    some1.inRegions (some1.readReg 1#5 + some1.operand2 (.imm 0xFFC#13)) = true := by decide

/-- Inside at the last word; outside at the word after the last, and at 0. -/
theorem test_witness_StoreWritesTheWord :
    (some1.readReg 1#5 + some1.operand2 (.imm 0xFFC#13)).toNat % 4 = 0 ∧
    some1.inRegions (some1.readReg 1#5 + some1.operand2 (.imm 0xFFC#13)) = true ∧
    ((some1.writeReg 1#5 0x2004#32).readReg 1#5 + (some1.writeReg 1#5 0x2004#32).operand2 (.imm 0xFFC#13)).toNat % 4 = 0 ∧
    (some1.writeReg 1#5 0x2004#32).inRegions
      ((some1.writeReg 1#5 0x2004#32).readReg 1#5 + (some1.writeReg 1#5 0x2004#32).operand2 (.imm 0xFFC#13)) = false ∧
    some1.inRegions (some1.readReg 0#5 + some1.operand2 (.imm 0#13)) = false := by decide

theorem test_witness_MisalignedDataAccessFaults :
    (some1.readReg 1#5 + some1.operand2 (.imm 1#13)).toNat % 4 ≠ 0 ∧
    (some1.readReg 1#5 + some1.operand2 (.imm 2#13)).toNat % 4 ≠ 0 ∧
    (some1.readReg 1#5 + some1.operand2 (.imm 0x1FFF#13)).toNat % 4 ≠ 0 := by decide

theorem test_witness_DataAccessOutsideRegionsFaults :
    (some1.readReg 0#5 + some1.operand2 (.imm 0xFFC#13)).toNat % 4 = 0 ∧
    some1.inRegions (some1.readReg 0#5 + some1.operand2 (.imm 0xFFC#13)) = false := by decide

/-- ST to 0x2004 by x[1] + 4, LD of it by x[1] + x[6] with x[6] = 4. -/
theorem test_witness_LoadAfterStoreGivesTheValue :
    let s := some1.writeReg 6#5 4#32
    s.faulted = none ∧ ∃ t, exec (.st 3#5 1#5 (.imm 4#13)) s = .next t ∧ t.faulted = none ∧
      t.address 1#5 (.reg 6#5) = s.address 1#5 (.imm 4#13) := ⟨by decide, _, rfl, by decide, by decide⟩

theorem test_witness_StoresToDifferentWordsCommute :
    isAligned (some1.address 1#5 (.imm 0#13)) = true ∧ isAligned (some1.address 1#5 (.imm 4#13)) = true ∧
    some1.inRegions (some1.address 1#5 (.imm 0#13)) = true ∧
    some1.inRegions (some1.address 1#5 (.imm 4#13)) = true ∧
    some1.address 1#5 (.imm 0#13) ≠ some1.address 1#5 (.imm 4#13) ∧
    some1.address 1#5 (.imm 0#13) = some1.address 1#5 (.reg 0#5) := by decide

theorem test_witness_FetchSeesAStoreWhenUnified :
    (some1.faulted = none ∧ some1.params.memOrg = .unified ∧
      ∃ t, exec (.st 3#5 1#5 (.imm 0#13)) some1 = .next t ∧ t.faulted = none) ∧
    (split1.faulted = none ∧ split1.params.memOrg = .split ∧
      ∃ t, exec (.st 3#5 1#5 (.imm 0#13)) split1 = .next t ∧ t.faulted = none) :=
  ⟨⟨by decide, by decide, _, rfl, by decide⟩, by decide, by decide, _, rfl, by decide⟩

/-- Both ends of the range. -/
theorem test_witness_BranchTargetsAreRelativeToTheBranch :
    (0x00001000#32 - 0x00801000#32).toInt = -8388608 ∧ (0x00800FFC#32 - 0x00001000#32).toInt = 8388604 ∧
    (0x00001000#32 - 0x00801000#32).toInt % 4 = 0 ∧ (0x00800FFC#32 - 0x00001000#32).toInt % 4 = 0 := by decide

theorem test_witness_BranchAlwaysZeroLoopsForEver :
    (about 0x10800000).faulted = none ∧ isAligned (about 0x10800000).pc = true ∧
    (about 0x10800000).inRegions (about 0x10800000).pc = true ∧
    (about 0x10800000).fetchWord = 0x10800000#32 := by decide

theorem test_witness_CallLinksAndJumps :
    isAligned some1.pc = true ∧ some1.faulted = none ∧
    (∃ t, exec (.call 0x20000000#30) some1 = .next t ∧ t.inRegions t.pc = false) ∧
    isAligned 0x2FFC#32 = true ∧ ∃ t, exec (.call (callDisp some1.pc 0x2FFC#32)) some1 = .next t :=
  ⟨by decide, by decide, ⟨_, rfl, by decide⟩, by decide, _, rfl⟩

theorem test_witness_JmplAndRetlJump :
    (some1.readReg 1#5 + some1.operand2 (.imm 4#13)).toNat % 4 = 0 ∧
    (some1.readReg 15#5 + 8#32).toNat % 4 = 0 := by decide

theorem test_witness_MisalignedJumpTargetFaults :
    (some1.readReg 1#5 + some1.operand2 (.imm 1#13)).toNat % 4 ≠ 0 ∧
    (some1.readReg 1#5 + some1.operand2 (.imm 4#13)).toNat % 4 = 0 ∧
    ((some1.writeReg 15#5 3#32).readReg 15#5 + 8#32).toNat % 4 ≠ 0 ∧
    (some1.readReg 15#5 + 8#32).toNat % 4 = 0 ∧
    (startAt 0x1001#32).faulted = none ∧
    fetchInstr (startAt 0x1001#32) = .raises (.memAddressNotAligned 0x1001#32) := by decide

theorem test_witness_RetlReturnsBehindTheCall :
    isAligned some1.pc = true ∧ ∃ t, exec (.call 4#30) some1 = .next t ∧
      (t.writeReg 3#5 1#32).readReg 15#5 = t.readReg 15#5 := ⟨by decide, _, rfl, by decide⟩

/-- The constant 0xDEADBEEF (47_sethi.md R241's example). -/
theorem test_witness_SethiThenOrLoadsAnyConstant :
    (31#5 : RegNum) ≠ 0#5 ∧
    ∃ t u, exec (.sethi 31#5 ((0xDEADBEEF#32).extractLsb' 10 22)) some1 = .next t ∧
      exec (.or 31#5 31#5 (.imm (((0xDEADBEEF#32).extractLsb' 0 10).setWidth 13))) t = .next u ∧
      u.readReg 31#5 = 0xDEADBEEF#32 := ⟨by decide, _, _, rfl, rfl, by decide⟩

end Sys2Proof.Tests
end

section
/-! PROOFS. Operand 2 of a decoded format 3 word (00_scope.md R9): what the format 3 decoder can answer,
which operand every row of its tables passes on, and what that operand is worth in a state. -/

namespace Sys2Proof.Machine

/-- An accepted word of format 3 is the row of its op3, applied to the word's own fields (R82). -/
theorem decodeFormat3_instr {table : List (BitVec 6 × (RegNum → RegNum → Operand2 → Instr))} {w : Word}
    {i : Instr} (h : decodeFormat3 table w = .instr i) :
    ∃ f, (op3Field w, f) ∈ table ∧ i = f (rdField w) (rs1Field w) (operand2Field w) := by
  unfold decodeFormat3 at h
  split at h
  case h_1 f hf =>
    obtain ⟨before, after, rfl, -⟩ := List.lookup_eq_some_iff.mp hf
    exact ⟨f, by simp, by simpa using h.symm⟩
  case h_2 => simp at h

/-- What the decoder answers for a word of format 3: RETL for its one word, and otherwise a row of R92's
or of R93's table. -/
theorem decode_format3_cases {w : Word} {i : Instr} (hop : opField w = 0b10#2 ∨ opField w = 0b11#2)
    (h : decode w = .instr i) :
    (w = retlWord ∧ i = .retl) ∨
    ∃ f, (op3Field w, f) ∈ arithOpcodes ++ memOpcodes ∧ i = f (rdField w) (rs1Field w) (operand2Field w) := by
  by_cases hretl : w = retlWord
  · subst hretl
    exact .inl ⟨rfl, by simpa [decode] using h.symm⟩
  · right
    obtain hop | hop := hop
    · have h3 : decodeFormat3 arithOpcodes w = .instr i := by simpa [decode, hretl, hop] using h
      obtain ⟨f, hf, hi⟩ := decodeFormat3_instr h3
      exact ⟨f, List.mem_append_left _ hf, hi⟩
    · have h3 : decodeFormat3 memOpcodes w = .instr i := by simpa [decode, hretl, hop] using h
      obtain ⟨f, hf, hi⟩ := decodeFormat3_instr h3
      exact ⟨f, List.mem_append_right _ hf, hi⟩

/-- Every row of the format 3 tables keeps the operand 2 it is given. -/
theorem operand2Of_format3_row {op3 : BitVec 6} {f : RegNum → RegNum → Operand2 → Instr}
    (hf : (op3, f) ∈ arithOpcodes ++ memOpcodes) (rd rs1 : RegNum) (o : Operand2) :
    operand2Of (f rd rs1 o) = some o := by
  have rows : ∀ row ∈ arithOpcodes ++ memOpcodes, operand2Of (row.2 rd rs1 o) = some o := by
    simp [arithOpcodes, memOpcodes, operand2Of]
  exact rows (op3, f) hf

/-- The operand 2 an accepted format 3 word decodes to is the one its low fourteen bits spell (R85);
for RETL's word that is the constant 8 (R232). -/
theorem operand2Of_decode {w : Word} {i : Instr} (hop : opField w = 0b10#2 ∨ opField w = 0b11#2)
    (h : decode w = .instr i) : operand2Of i = some (operand2Field w) := by
  obtain ⟨rfl, rfl⟩ | ⟨f, hf, rfl⟩ := decode_format3_cases hop h
  · decide
  · exact operand2Of_format3_row hf _ _ _

/-- The value of the operand 2 a word spells (R9). -/
theorem operand2_operand2Field (s : State) (w : Word) :
    s.operand2 (operand2Field w) =
      if w.getLsbD 13 = false then s.readReg (w.extractLsb' 0 5) else (w.extractLsb' 0 13).signExtend 32 := by
  cases hi : w.getLsbD 13 with
  | false =>
    have ho : operand2Field w = .reg (rs2Field w) := by
      simp only [operand2Field, iField, hi, Bool.false_eq_true, ite_false]
    rw [ho, operand2_reg, rs2Field, if_pos rfl]
  | true =>
    have ho : operand2Field w = .imm (simm13Field w) := by
      simp only [operand2Field, iField, hi, ite_true]
    rw [ho, operand2_imm, simm13Field, if_neg (by decide)]

/-- Settles O27: the decoded operand is the word's own field, whose value R9 gives. -/
theorem operandTwoIsRegisterOrConstant : Obligations.OperandTwoIsRegisterOrConstant := by
  unfold Obligations.OperandTwoIsRegisterOrConstant
  intro w i s hop h
  exact ⟨operand2Field w, operand2Of_decode hop h, operand2_operand2Field s w⟩

end Sys2Proof.Machine
end

section
/-! PROOFS. LD and ST by the two checks of their address (20_memory.md R52, R54, R55): what each branch
answers, and what the bytes of the memory read as after the store. -/

namespace Sys2Proof.Machine

/-! ## The two checks -/

/-- Everything an LD does: the word into x[rd], or the fault of the first check that fails
(44_load_store.md R191). -/
theorem exec_ld_eq (rd rs1 : RegNum) (o : Operand2) (s : State) :
    exec (.ld rd rs1 o) s =
      if isAligned (s.address rs1 o) then
        if s.inRegions (s.address rs1 o) then complete rd (s.loadWord (s.address rs1 o)) s
        else raise (.dataAccess (s.address rs1 o)) s
      else raise (.memAddressNotAligned (s.address rs1 o)) s := by
  change execLd rd rs1 o s = _
  unfold execLd
  cases isAligned (s.address rs1 o) <;> cases s.inRegions (s.address rs1 o) <;> rfl

/-- Everything an ST does: the word stored, or the fault of the first check that fails
(44_load_store.md R192). -/
theorem exec_st_eq (rd rs1 : RegNum) (o : Operand2) (s : State) :
    exec (.st rd rs1 o) s =
      if isAligned (s.address rs1 o) then
        if s.inRegions (s.address rs1 o) then .next (s.storeWord (s.address rs1 o) (s.readReg rd)).advance
        else raise (.dataAccess (s.address rs1 o)) s
      else raise (.memAddressNotAligned (s.address rs1 o)) s := by
  change execSt rd rs1 o s = _
  unfold execSt
  cases isAligned (s.address rs1 o) <;> cases s.inRegions (s.address rs1 o) <;> rfl

/-- An address that is not a multiple of 4 fails the alignment check (20_memory.md R52). -/
theorem isAligned_eq_false_iff (a : Word) : isAligned a = false ↔ a.toNat % 4 ≠ 0 := by
  rw [← Bool.not_eq_true, isAligned_iff]

/-- `raise` enters the faulted condition and changes nothing else (60_exceptions.md R270). -/
theorem raises_raise (f : Fault) (s : State) : Raises (raise f s) s f := rfl

/-- LD and ST at a misaligned address end in the fault of the first check, whatever MEM_REGIONS holds. -/
theorem exec_memAccess_misaligned {rd rs1 : RegNum} {o : Operand2} {s : State} {i : Instr}
    (h : isAligned (s.address rs1 o) = false) (hi : i ∈ [Instr.ld rd rs1 o, .st rd rs1 o]) :
    exec i s = raise (.memAddressNotAligned (s.address rs1 o)) s := by
  obtain rfl | rfl : i = .ld rd rs1 o ∨ i = .st rd rs1 o := by simpa using hi
  · simp [exec_ld_eq, h]
  · simp [exec_st_eq, h]

/-- LD and ST at an aligned address outside MEM_REGIONS end in the fault of the second check. -/
theorem exec_memAccess_outside {rd rs1 : RegNum} {o : Operand2} {s : State} {i : Instr}
    (ha : isAligned (s.address rs1 o) = true) (hr : s.inRegions (s.address rs1 o) = false)
    (hi : i ∈ [Instr.ld rd rs1 o, .st rd rs1 o]) :
    exec i s = raise (.dataAccess (s.address rs1 o)) s := by
  obtain rfl | rfl : i = .ld rd rs1 o ∨ i = .st rd rs1 o := by simpa using hi
  · simp [exec_ld_eq, ha, hr]
  · simp [exec_st_eq, ha, hr]

/-- ST at an aligned address in MEM_REGIONS stores the word and advances pc. -/
theorem exec_st_inside {rd rs1 : RegNum} {o : Operand2} {s : State}
    (ha : isAligned (s.address rs1 o) = true) (hr : s.inRegions (s.address rs1 o) = true) :
    exec (.st rd rs1 o) s = .next (s.storeWord (s.address rs1 o) (s.readReg rd)).advance := by
  simp [exec_st_eq, ha, hr]

/-! ## The bytes after a store -/

/-- Each of the four bytes stored to reads as its byte of the word, the most significant at the lowest
address (20_memory.md R51, R55). -/
theorem dataByte_storeWord_inside (s : State) (a v : Word) {k : Nat} (hk : k ≤ 3) :
    (s.storeWord a v).dataByte (a.toNat + k) = byteOfWord v k := by
  rw [dataByte_storeWord, if_pos (by omega), Nat.add_sub_cancel_left]

/-- Every other byte reads as before (20_memory.md R55). -/
theorem dataByte_storeWord_outside (s : State) (a v : Word) {k : Nat}
    (hk : k < a.toNat ∨ a.toNat + 3 < k) : (s.storeWord a v).dataByte k = s.dataByte k := by
  rw [dataByte_storeWord, if_neg (by omega)]

/-! ## The obligations -/

/-- Settles O42: inside MEM_REGIONS by the bytes of the stored word and the frame of `storeWord`, outside
by the second check. -/
theorem storeWritesTheWord : Obligations.StoreWritesTheWord := by
  unfold Obligations.StoreWritesTheWord
  rintro rd rs1 o s a v rfl rfl halign
  have ha : isAligned (s.address rs1 o) = true := (isAligned_iff _).2 halign
  constructor
  · intro hr
    have byte {k : Nat} (hk : k ≤ 3) := dataByte_storeWord_inside s (s.address rs1 o) (s.readReg rd) hk
    exact ⟨_, exec_st_inside ha hr,
      byte (k := 0) (by decide), byte (by decide), byte (by decide), byte (by decide),
      fun _ hk => dataByte_storeWord_outside s _ _ hk,
      by simp, by simp [SameRegs], by simp, by simp, by simp [SameRest]⟩
  · intro hr
    rw [exec_memAccess_outside (rd := rd) ha hr (by simp)]
    exact raises_raise _ s

/-- Settles O43: the alignment check comes first in both instructions. -/
theorem misalignedDataAccessFaults : Obligations.MisalignedDataAccessFaults := by
  unfold Obligations.MisalignedDataAccessFaults
  intro rd rs1 o s halign i hi
  have ha : isAligned (s.address rs1 o) = false := (isAligned_eq_false_iff _).2 halign
  rw [exec_memAccess_misaligned ha hi]
  exact raises_raise _ s

end Sys2Proof.Machine
end

section
/-! PROOFS. The rows of the opcode table by the fields of the word (30_encoding.md R92 to R97), the words
that no row matches (R87, R95), and the fault of a step that fetches one. -/

namespace Sys2Proof.Machine

/-! ## A row's match in terms of the word's fields -/

/-- Two concatenations cut at the same place are equal exactly when their parts are. -/
theorem append_eq_append_iff {m n : Nat} (x x' : BitVec m) (y y' : BitVec n) :
    x ++ y = x' ++ y' ↔ x = x' ∧ y = y' := by
  constructor
  · intro h
    have left := congrArg (BitVec.extractLsb' n m) h
    have right := congrArg (BitVec.extractLsb' 0 n) h
    simp only [BitVec.extractLsb'_append_eq_left, BitVec.extractLsb'_append_eq_right] at left right
    exact ⟨left, right⟩
  · rintro ⟨rfl, rfl⟩; rfl

/-- The mask of a format 3 row keeps op and op3 (R82). -/
theorem masked_format3 (w : Word) : w &&& 0xC1F80000#32 = opField w ++ 0#5 ++ op3Field w ++ 0#19 := by
  apply BitVec.eq_of_getLsbD_eq; intro i hi
  interval_cases i <;>
    (simp only [opField, op3Field, BitVec.getLsbD_and, BitVec.getLsbD_append, BitVec.getLsbD_extractLsb']; simp)

/-- The mask of a branch row keeps op, bit 29, cond and op2 (R84, R87). -/
theorem masked_branch (w : Word) :
    w &&& 0xFFC00000#32 = opField w ++ BitVec.ofBool (annulField w) ++ condField w ++ op2Field w ++ 0#22 := by
  apply BitVec.eq_of_getLsbD_eq; intro i hi
  interval_cases i <;>
    (simp only [opField, annulField, condField, op2Field, BitVec.getLsbD_and, BitVec.getLsbD_append,
      BitVec.getLsbD_extractLsb']; simp)

/-- The mask of SETHI's row keeps op and op2 (R84). -/
theorem masked_sethi (w : Word) : w &&& 0xC1C00000#32 = opField w ++ 0#5 ++ op2Field w ++ 0#22 := by
  apply BitVec.eq_of_getLsbD_eq; intro i hi
  interval_cases i <;>
    (simp only [opField, op2Field, BitVec.getLsbD_and, BitVec.getLsbD_append, BitVec.getLsbD_extractLsb']; simp)

/-- The mask of CALL's row keeps op (R81). -/
theorem masked_call (w : Word) : w &&& 0xC0000000#32 = opField w ++ 0#30 := by
  apply BitVec.eq_of_getLsbD_eq; intro i hi
  interval_cases i <;>
    (simp only [opField, BitVec.getLsbD_and, BitVec.getLsbD_append, BitVec.getLsbD_extractLsb']; simp)

/-- A word lies under a format 3 mask and pattern exactly when op and op3 are the pattern's. -/
theorem masked_format3_eq_iff (w : Word) (op : BitVec 2) (op3 : BitVec 6) :
    w &&& 0xC1F80000#32 = op ++ 0#5 ++ op3 ++ 0#19 ↔ opField w = op ∧ op3Field w = op3 := by
  rw [masked_format3, append_eq_append_iff, append_eq_append_iff, append_eq_append_iff]
  simp

/-- A row matches the words whose bits under its mask are its pattern. -/
theorem matchesWord_iff (r : OpcodeRow) (w : Word) : r.matchesWord w = true ↔ w &&& r.mask = r.pattern :=
  decide_eq_true_iff

/-- The words of a row of R92. -/
theorem arithRow_matchesWord_iff (name : String) (op3 : BitVec 6) (w : Word) :
    (arithRow name op3).matchesWord w = true ↔ opField w = 0b10#2 ∧ op3Field w = op3 := by
  have pattern : (arithRow name op3).pattern = 0b10#2 ++ 0#5 ++ op3 ++ 0#19 := by
    change 0x80000000#32 ||| (op3.setWidth 32 <<< 19) = _
    revert op3; decide
  rw [matchesWord_iff, pattern]
  exact masked_format3_eq_iff w 0b10#2 op3

/-- The words of a row of R94. -/
theorem branchRow_matchesWord_iff (name : String) (c : BitVec 4) (w : Word) :
    (branchRow name c).matchesWord w = true ↔
      opField w = 0b00#2 ∧ annulField w = false ∧ condField w = c ∧ op2Field w = 0b010#3 := by
  have pattern : (branchRow name c).pattern = 0b00#2 ++ BitVec.ofBool false ++ c ++ 0b010#3 ++ 0#22 := by
    change (c.setWidth 32 <<< 25) ||| 0x00800000#32 = _
    revert c; decide
  have mask : (branchRow name c).mask = 0xFFC00000#32 := rfl
  rw [matchesWord_iff, pattern, mask, masked_branch, append_eq_append_iff]
  simp only [append_eq_append_iff]
  cases annulField w <;> simp [and_assoc]

/-- The words of LD's row (R93). -/
theorem ldRow_matchesWord_iff (w : Word) :
    (⟨"LD", 0xC1F80000#32, 0xC0000000#32⟩ : OpcodeRow).matchesWord w = true ↔
      opField w = 0b11#2 ∧ op3Field w = 0x00#6 :=
  (matchesWord_iff _ w).trans (masked_format3_eq_iff w 0b11#2 0x00#6)

/-- The words of ST's row (R93). -/
theorem stRow_matchesWord_iff (w : Word) :
    (⟨"ST", 0xC1F80000#32, 0xC0200000#32⟩ : OpcodeRow).matchesWord w = true ↔
      opField w = 0b11#2 ∧ op3Field w = 0x04#6 :=
  (matchesWord_iff _ w).trans (masked_format3_eq_iff w 0b11#2 0x04#6)

/-- The words of CALL's row (R96). -/
theorem callRow_matchesWord_iff (w : Word) :
    (⟨"CALL", 0xC0000000#32, 0x40000000#32⟩ : OpcodeRow).matchesWord w = true ↔ opField w = 0b01#2 := by
  have pattern : 0x40000000#32 = 0b01#2 ++ 0#30 := rfl
  rw [matchesWord_iff, pattern, masked_call, append_eq_append_iff]
  simp

/-- The words of SETHI's row (R94). -/
theorem sethiRow_matchesWord_iff (w : Word) :
    (⟨"SETHI", 0xC1C00000#32, 0x01000000#32⟩ : OpcodeRow).matchesWord w = true ↔
      opField w = 0b00#2 ∧ op2Field w = 0b100#3 := by
  have pattern : 0x01000000#32 = 0b00#2 ++ 0#5 ++ 0b100#3 ++ 0#22 := rfl
  rw [matchesWord_iff, pattern, masked_sethi, append_eq_append_iff, append_eq_append_iff,
    append_eq_append_iff]
  simp

/-- RETL's row holds its one word (R97). -/
theorem retlRow_matchesWord_iff (w : Word) :
    (⟨"RETL", 0xFFFFFFFF#32, 0x81C3E008#32⟩ : OpcodeRow).matchesWord w = true ↔ w = retlWord := by
  have mask : w &&& 0xFFFFFFFF#32 = w := BitVec.and_allOnes
  rw [matchesWord_iff, mask, retlWord]

/-! ## The words some row matches -/

/-- The fields of a word that has a row, format by format (R80, R87, R92 to R94). -/
def Assigned (w : Word) : Prop :=
  (opField w = 0b00#2 ∧ (op2Field w = 0b100#3 ∨ annulField w = false ∧ op2Field w = 0b010#3)) ∨
  opField w = 0b01#2 ∨
  (opField w = 0b10#2 ∧ op3Field w ∈ arithOpcodes.map Prod.fst) ∨
  (opField w = 0b11#2 ∧ op3Field w ∈ memOpcodes.map Prod.fst)

/-- RETL's word has JMPL's fields (R97). -/
theorem assigned_retlWord : Assigned retlWord :=
  .inr (.inr (.inl (by decide)))

/-- The rows of R92 with JMPL's are those of the op3 values the decoder's table lists. -/
theorem exists_arithRow_iff (w : Word) :
    ((∃ r ∈ arithRows, r.matchesWord w = true) ∨ (arithRow "JMPL" 0x38#6).matchesWord w = true) ↔
      opField w = 0b10#2 ∧ op3Field w ∈ arithOpcodes.map Prod.fst := by
  simp only [arithRows, arithOpcodes, List.map, List.mem_cons, List.not_mem_nil, exists_eq_or_imp,
    exists_eq_left, arithRow_matchesWord_iff, ← and_or_left, or_assoc, or_false]

/-- LD's row and ST's are those of the op3 values the decoder's table lists. -/
theorem exists_memRow_iff (w : Word) :
    ((⟨"LD", 0xC1F80000#32, 0xC0000000#32⟩ : OpcodeRow).matchesWord w = true ∨
      (⟨"ST", 0xC1F80000#32, 0xC0200000#32⟩ : OpcodeRow).matchesWord w = true) ↔
      opField w = 0b11#2 ∧ op3Field w ∈ memOpcodes.map Prod.fst := by
  simp only [memOpcodes, List.map, List.mem_cons, List.not_mem_nil, ldRow_matchesWord_iff,
    stRow_matchesWord_iff, ← and_or_left, or_false]

/-- The sixteen branch rows leave out no value of cond. -/
theorem exists_branchRow_iff (w : Word) :
    (∃ r ∈ branchRows, r.matchesWord w = true) ↔
      opField w = 0b00#2 ∧ annulField w = false ∧ op2Field w = 0b010#3 := by
  simp only [branchRows, List.mem_cons, List.not_mem_nil, exists_eq_or_imp, or_false,
    exists_eq_left, branchRow_matchesWord_iff, ← and_or_left, ← or_and_right]
  refine and_congr_right fun _ => and_congr_right fun _ => and_iff_right ?_
  generalize condField w = c
  revert c
  decide

/-- Some row of the table matches a word exactly when its fields are assigned. RETL's row adds nothing
to JMPL's. -/
theorem exists_row_iff_assigned (w : Word) :
    (∃ r ∈ opcodeRows, r.matchesWord w = true) ↔ Assigned w := by
  have retl : w = retlWord → Assigned w := by rintro rfl; exact assigned_retlWord
  have split : (∃ r ∈ opcodeRows, r.matchesWord w = true) ↔ w = retlWord ∨ Assigned w := by
    rw [Assigned, and_or_left, ← sethiRow_matchesWord_iff, ← exists_branchRow_iff,
      ← callRow_matchesWord_iff, ← exists_arithRow_iff, ← exists_memRow_iff, ← retlRow_matchesWord_iff]
    simp only [opcodeRows, List.mem_append, or_and_right, exists_or, List.mem_cons, List.not_mem_nil,
      or_false, exists_eq_left]
    exact Iff.of_eq (by ac_rfl)
  rw [split, or_iff_right_of_imp retl]

/-- No row matches a word exactly when its fields are not assigned. -/
theorem no_row_iff_not_assigned (w : Word) :
    (∀ r ∈ opcodeRows, r.matchesWord w = false) ↔ ¬ Assigned w := by
  rw [← exists_row_iff_assigned]
  simp

/-- What format 2 leaves out: the other values of op2, and the branch words with bit 29 set (R87, R94). -/
theorem not_format2_iff (op2 : BitVec 3) (annul : Bool) :
    ¬ (op2 = 0b100#3 ∨ annul = false ∧ op2 = 0b010#3) ↔
      (op2 ≠ 0b010#3 ∧ op2 ≠ 0b100#3) ∨ (op2 = 0b010#3 ∧ annul = true) := by
  revert op2 annul; decide

/-- The op3 values R92's table leaves out. -/
theorem not_mem_arithOpcodes_iff (x : BitVec 6) :
    x ∉ arithOpcodes.map Prod.fst ↔
      x = 0x09#6 ∨ x = 0x0D#6 ∨ x = 0x19#6 ∨ x = 0x1D#6 ∨ (0x20 ≤ x.toNat ∧ x.toNat ≤ 0x24) ∨
        (0x28 ≤ x.toNat ∧ x.toNat ≤ 0x37) ∨ (0x39 ≤ x.toNat ∧ x.toNat ≤ 0x3F) := by
  revert x; decide

/-- The op3 values R93's table leaves out. -/
theorem not_mem_memOpcodes_iff (x : BitVec 6) :
    x ∉ memOpcodes.map Prod.fst ↔ x ≠ 0x00#6 ∧ x ≠ 0x04#6 := by
  simp [memOpcodes]

/-- A branch word with bit 29 set has no row (R87). -/
theorem not_assigned_of_annulled {w : Word} (hop : opField w = 0b00#2) (hop2 : op2Field w = 0b010#3)
    (hannul : annulField w = true) : ¬ Assigned w := by
  simp [Assigned, hop, hop2, hannul]

/-! ## The decoder accepts no other word -/

/-- Format 2 is SETHI, or a branch with bit 29 = 0 (R84, R87). -/
theorem decodeFormat2_instr {w : Word} {i : Instr} (h : decodeFormat2 w = .instr i) :
    op2Field w = 0b100#3 ∨ annulField w = false ∧ op2Field w = 0b010#3 := by
  unfold decodeFormat2 at h
  split_ifs at h with hsethi hbranch hannul
  · exact .inl hsethi
  · exact .inr ⟨by simpa using hannul, hbranch⟩

/-- Format 3 takes the op3 values of its table only (R92, R93). -/
theorem op3Field_mem_of_decodeFormat3 {table : List (BitVec 6 × (RegNum → RegNum → Operand2 → Instr))}
    {w : Word} {i : Instr} (h : decodeFormat3 table w = .instr i) : op3Field w ∈ table.map Prod.fst := by
  obtain ⟨f, hf, -⟩ := decodeFormat3_instr h
  exact List.mem_map_of_mem hf

/-- An accepted word's fields are assigned (R99). -/
theorem assigned_of_decode {w : Word} {i : Instr} (h : decode w = .instr i) : Assigned w := by
  unfold decode at h
  split_ifs at h with hretl hcall hformat2 harith
  · exact hretl ▸ assigned_retlWord
  · exact .inr (.inl hcall)
  · exact .inl ⟨hformat2, decodeFormat2_instr h⟩
  · exact .inr (.inr (.inl ⟨harith, op3Field_mem_of_decodeFormat3 h⟩))
  · have hmem : opField w = 0b11#2 := by
      generalize opField w = op at *
      revert op; decide
    exact .inr (.inr (.inr ⟨hmem, op3Field_mem_of_decodeFormat3 h⟩))

/-- A step that fetches a word the decoder does not accept raises illegal_instruction with the word
(60_exceptions.md R273). -/
theorem step_raises_illegalInstruction {s : State} (hf : s.faulted = none) (ha : isAligned s.pc = true)
    (hr : s.inRegions s.pc = true) (hw : ∀ i, decode s.fetchWord ≠ .instr i) :
    Raises (step s) s (.illegalInstruction s.fetchWord) := by
  have hfetch : fetchInstr s = .raises (.illegalInstruction s.fetchWord) := by
    obtain ⟨h, -⟩ | ⟨-, h, -⟩ | ⟨-, -, r, -, h⟩ | ⟨-, -, i, h, -⟩ := fetchInstr_cases s
    · simp [h] at ha
    · simp [h] at hr
    · exact h
    · exact absurd h (hw i)
  simp only [step, hf, hfetch]
  exact raises_raise _ s

/-! ## The obligations -/

/-- Settles O8: no row matches a word exactly when its fields are not assigned, so the decoder does not
accept it; R95's list is what `Assigned` leaves out under each value of op. -/
theorem unassignedWordsAreIllegal : Obligations.UnassignedWordsAreIllegal := by
  unfold Obligations.UnassignedWordsAreIllegal
  constructor
  · intro s hf ha hr hrows
    have hw : ¬ Assigned s.fetchWord := (no_row_iff_not_assigned _).1 hrows
    exact step_raises_illegalInstruction hf ha hr fun _ h => hw (assigned_of_decode h)
  · intro w
    rw [no_row_iff_not_assigned, ← not_mem_arithOpcodes_iff, ← not_mem_memOpcodes_iff, Assigned, ← annulField]
    have hop : ∀ op : BitVec 2, op = 0b00#2 ∨ op = 0b01#2 ∨ op = 0b10#2 ∨ op = 0b11#2 := by decide
    obtain h | h | h | h := hop (opField w)
    · simpa [h] using not_format2_iff (op2Field w) (annulField w)
    · simp [h]
    · simp [h]
    · simp [h]

/-- Settles O9: the branch rows by inspection; a branch word with bit 29 set is not assigned. -/
theorem annulledBranchIsIllegal : Obligations.AnnulledBranchIsIllegal := by
  unfold Obligations.AnnulledBranchIsIllegal
  refine ⟨by decide, fun w hop hop2 hannul => ?_⟩
  have hw : ∀ i, decode w ≠ .instr i := fun _ h =>
    not_assigned_of_annulled hop hop2 hannul (assigned_of_decode h)
  refine ⟨hw, ?_⟩
  rintro s hf ha hr rfl
  exact step_raises_illegalInstruction hf ha hr hw

end Sys2Proof.Machine
end

section
/-! PROOFS. CALL and the two jumps that check their target (46_call_jump.md R230 to R233): what each
answers, where CALL's displacement leads, and the step whose own fetch fails. -/

namespace Sys2Proof.Machine

/-! ## What the three instructions answer -/

/-- Everything a CALL does: the link and pc, with no check (R230). -/
theorem exec_call_eq (d : BitVec 30) (s : State) :
    exec (.call d) s = .next ((s.writeReg 15#5 s.pc).setPc (callTarget s.pc d)) := rfl

/-- Everything a JMPL does, by the alignment of its target (R231, R233). -/
theorem exec_jmpl_eq (rd rs1 : RegNum) (o : Operand2) (s : State) :
    exec (.jmpl rd rs1 o) s =
      if isAligned (s.readReg rs1 + s.operand2 o) then
        .next ((s.writeReg rd s.pc).setPc (s.readReg rs1 + s.operand2 o))
      else raise (.memAddressNotAligned (s.readReg rs1 + s.operand2 o)) s :=
  jumpAndLink_eq rd (s.readReg rs1 + s.operand2 o) s

/-- Everything a RETL does, by the alignment of its target (R232, R233). -/
theorem exec_retl_eq (s : State) :
    exec .retl s =
      if isAligned (s.readReg 15#5 + 8#32) then .next (s.setPc (s.readReg 15#5 + 8#32))
      else raise (.memAddressNotAligned (s.readReg 15#5 + 8#32)) s :=
  jumpAndLink_eq 0#5 (s.readReg 15#5 + 8#32) s

/-! ## The word and the target of CALL -/

/-- Format 1: op = 0b01 above the thirty bits of the displacement (R81, R96). -/
theorem encode_call (d : BitVec 30) : encode (.call d) = 0x40000000#32 ||| d.setWidth 32 := by
  change 0b01#2 ++ d = _
  rw [BitVec.append_def]
  rfl

/-- CALL's target in exact integers (R90). -/
theorem toNat_callTarget (pc : Word) (d : BitVec 30) :
    (callTarget pc d).toNat = (pc.toNat + 4 * d.toNat) % 2 ^ 32 := by
  simp [callTarget]

/-- CALL keeps pc a multiple of 4 (R27, R230). -/
theorem isAligned_callTarget {pc : Word} (d : BitVec 30) (h : isAligned pc = true) :
    isAligned (callTarget pc d) = true :=
  isAligned_add4mul _ h

/-- The displacement an assembler computes, four times over, is the distance to an aligned target: the
shift drops two zero bits (R90). -/
theorem toNat_callDisp {pc target : Word} (hpc : isAligned pc = true) (ht : isAligned target = true) :
    4 * (callDisp pc target).toNat = (target - pc).toNat := by
  rw [isAligned_iff] at hpc ht
  simp only [callDisp, BitVec.toNat_setWidth, BitVec.toNat_ushiftRight, Nat.shiftRight_eq_div_pow,
    BitVec.toNat_sub]
  omega

/-- A CALL with the displacement an assembler computes reaches its aligned target (R230). -/
theorem callTarget_callDisp {pc target : Word} (hpc : isAligned pc = true)
    (ht : isAligned target = true) : callTarget pc (callDisp pc target) = target := by
  apply BitVec.eq_of_toNat_eq
  rw [toNat_callTarget, toNat_callDisp hpc ht, ← BitVec.toNat_add, BitVec.add_comm, BitVec.sub_add_cancel]

/-! ## A step whose fetch fails (60_exceptions.md R273) -/

/-- The fault of the fetch is the step's whole answer: no instruction runs. -/
theorem step_raises_of_fetchInstr {s : State} {f : Fault} (hf : s.faulted = none)
    (h : fetchInstr s = .raises f) : Raises (step s) s f := by
  simp only [step, hf, h]
  exact raises_raise f s

/-- An aligned pc outside MEM_REGIONS fails the fetch's second check (20_memory.md R53). -/
theorem fetchInstr_outside {s : State} (ha : isAligned s.pc = true) (hr : s.inRegions s.pc = false) :
    fetchInstr s = .raises (.instructionAccess s.pc) := by
  simp [fetchInstr, ha, hr]

/-! ## The obligations -/

/-- Settles O53: the state after the CALL by the rules of its two writes; the next fetch fails at its
second check, because the target of an aligned CALL is aligned. -/
theorem callLinksAndJumps : Obligations.CallLinksAndJumps := by
  unfold Obligations.CallLinksAndJumps
  refine ⟨encode_call, fun d s => ⟨_, exec_call_eq d s, ?link, toNat_callTarget s.pc d, ?icc, ?memories,
    ?rest, ?nextFetch⟩, ?reaches⟩
  case link => exact fun r => by simpa using readReg_writeReg s 15#5 r s.pc
  case icc => simp
  case memories => simp [SameMemories]
  case rest => simp [SameRest]
  case nextFetch =>
    intro ha hf hr
    have hta := isAligned_callTarget d ha
    exact step_raises_of_fetchInstr (by simpa using hf) (fetchInstr_outside hta hr)
  case reaches =>
    rintro _ target hpc ht s t rfl h
    rw [exec_call_eq, callTarget_callDisp hpc ht] at h
    obtain rfl := Host.Outcome.next.inj h
    rfl

/-- Settles O55: both instructions branch on the alignment of their target alone, before any write. -/
theorem misalignedJumpTargetFaults : Obligations.MisalignedJumpTargetFaults := by
  unfold Obligations.MisalignedJumpTargetFaults
  refine ⟨fun rd rs1 o s => ⟨fun h => ?jmplStops, fun h => ?jmplGoes⟩,
    fun s => ⟨fun h => ?retlStops, fun h => ?retlGoes⟩, fun s f => step_raises_of_fetchInstr⟩
  case jmplStops =>
    rw [exec_jmpl_eq, (isAligned_eq_false_iff _).2 h]
    exact raises_raise _ s
  case jmplGoes =>
    rw [exec_jmpl_eq, (isAligned_iff _).2 h]
    exact ⟨_, rfl, by simp⟩
  case retlStops =>
    rw [exec_retl_eq, (isAligned_eq_false_iff _).2 h]
    exact raises_raise _ s
  case retlGoes =>
    rw [exec_retl_eq, (isAligned_iff _).2 h]
    exact ⟨_, rfl, by simp⟩

end Sys2Proof.Machine
end

section
/-! PROOFS. SETHI (47_sethi.md R240): its word, the decoder's way to it, the value it loads, and what
an instruction that only completes leaves unchanged. -/

namespace Sys2Proof.Machine

/-! ## The word -/

/-- Format 2: op2 = 0b100 is the one set bit of the opcode, with rd above it and the constant below
(R84, R94). -/
theorem encode_sethi (rd : RegNum) (k : BitVec 22) :
    encode (.sethi rd k) = 0x01000000#32 ||| (rd.setWidth 32 <<< 25) ||| k.setWidth 32 := by
  change 0b00#2 ++ rd ++ 0b100#3 ++ k = _
  apply BitVec.eq_of_getLsbD_eq; intro i hi
  interval_cases i <;> (simp only [BitVec.getLsbD_or, BitVec.getLsbD_append]; simp)

/-- A word of format 2 is decoded by its op2: RETL's word and CALL's have another op (R80, R99). -/
theorem decode_format2 {w : Word} (hop : opField w = 0b00#2) : decode w = decodeFormat2 w := by
  have hretl : w ≠ retlWord := by rintro rfl; exact absurd hop (by decide)
  simp [decode, hretl, hop]

/-- The decoder reads SETHI and its two fields back from its word (R84, R94). -/
theorem decode_encode_sethi (rd : RegNum) (k : BitVec 22) :
    decode (encode (.sethi rd k)) = .instr (.sethi rd k) := by
  change decode (0b00#2 ++ rd ++ 0b100#3 ++ k) = _
  obtain ⟨hop, hop2, hrd, hk⟩ := fields_sethiWord rd k
  rw [decode_format2 hop, decodeFormat2, if_pos hop2, hrd, hk]

/-! ## The execution -/

/-- Everything a SETHI does: the constant above ten zero bits into x[rd] (R240). -/
theorem exec_sethi_eq (rd : RegNum) (k : BitVec 22) (s : State) :
    exec (.sethi rd k) s = complete rd (k ++ 0#10) s := rfl

/-- Zeros appended below a bit vector multiply it by their power of two. -/
theorem toNat_append_zero {m n : Nat} (x : BitVec m) : (x ++ 0#n).toNat = x.toNat * 2 ^ n := by
  simp [BitVec.toNat_append, Nat.shiftLeft_eq]

/-- An instruction that only completes writes x[rd] and pc, and nothing else. -/
theorem completesWith_of_complete {i : Instr} {s : State} {rd : RegNum} {v : Word}
    (h : exec i s = complete rd v s) : CompletesWith i s rd v s.icc := by
  refine ⟨(s.writeReg rd v).advance, h, fun r => ?_, ?_, ?_, ?_, ?_⟩
  · simpa using readReg_writeReg s rd r v
  · simp
  · simp
  · simp [SameMemories]
  · simp [SameRest]

/-! ## The obligation -/

/-- Settles O57: the word and its round trip by the fields of format 2; the execution is `complete` with
the constant above ten zero bits. -/
theorem sethiLoadsTheHighPart : Obligations.SethiLoadsTheHighPart := by
  unfold Obligations.SethiLoadsTheHighPart
  intro rd k
  exact ⟨encode_sethi rd k, decode_encode_sethi rd k, fun s =>
    ⟨k ++ 0#10, toNat_append_zero k, completesWith_of_complete (exec_sethi_eq rd k s)⟩⟩

end Sys2Proof.Machine
end

section
/-! PROOFS. The order of the checks within one step (60_exceptions.md R273): the fetch's three, and behind
them the checks of the instruction the fetched word decodes to. -/

namespace Sys2Proof.Machine

/-! ## The fetch -/

/-- The alignment of pc is the fetch's first check (20_memory.md R53). -/
theorem fetchInstr_misaligned {s : State} (ha : isAligned s.pc = false) :
    fetchInstr s = .raises (.memAddressNotAligned s.pc) := by
  simp [fetchInstr, ha]

/-- The fetch whose two checks of pc pass hands on what the decoder reads. -/
theorem fetchInstr_inside {s : State} {i : Instr} (ha : isAligned s.pc = true)
    (hr : s.inRegions s.pc = true) (hi : decode s.fetchWord = .instr i) : fetchInstr s = .instr i := by
  simp [fetchInstr, ha, hr, hi]

/-- A step whose fetch gives an instruction is that instruction's execution
(70_reset_and_hazards.md R302). -/
theorem step_eq_exec_of_fetchInstr {s : State} {i : Instr} (hf : s.faulted = none)
    (h : fetchInstr s = .instr i) : step s = exec i s := by
  simp only [step, hf, h]

/-! ## The instructions' own checks -/

/-- JMPL to a misaligned target ends in the fault of its one check (46_call_jump.md R233). -/
theorem exec_jmpl_misaligned {rd rs1 : RegNum} {o : Operand2} {s : State}
    (h : isAligned (s.address rs1 o) = false) :
    exec (.jmpl rd rs1 o) s = raise (.memAddressNotAligned (s.address rs1 o)) s := by
  rw [exec_jmpl_eq, ← State.address, if_neg (by simp [h])]

/-- RETL to a misaligned target ends in the same fault (46_call_jump.md R233). -/
theorem exec_retl_misaligned {s : State} (h : isAligned (s.readReg 15#5 + 8#32) = false) :
    exec .retl s = raise (.memAddressNotAligned (s.readReg 15#5 + 8#32)) s := by
  rw [exec_retl_eq, if_neg (by simp [h])]

/-- The zero test is the first thing each of the four divides does (42_mul_div.md R165). -/
theorem exec_divide_zero {rd rs1 : RegNum} {o : Operand2} {s : State} {i : Instr}
    (h : s.operand2 o = 0x00000000#32)
    (hi : i ∈ [Instr.udiv rd rs1 o, .sdiv rd rs1 o, .udivcc rd rs1 o, .sdivcc rd rs1 o]) :
    exec i s = raise (.divisionByZero s.pc) s := by
  obtain rfl | rfl | rfl | rfl : i = .udiv rd rs1 o ∨ i = .sdiv rd rs1 o ∨ i = .udivcc rd rs1 o ∨
    i = .sdivcc rd rs1 o := by simpa using hi
  · exact (if_pos h : execUdiv rd rs1 o s = _)
  · exact (if_pos h : execSdiv rd rs1 o s = _)
  · exact (if_pos h : execUdivcc rd rs1 o s = _)
  · exact (if_pos h : execSdivcc rd rs1 o s = _)

/-! ## The obligation -/

/-- Settles O11: the fetch's fault is the step's, check by check; behind a fetch that succeeds the step
is `exec` of the decoded instruction, which raises by its own first failing check. -/
theorem checksComeInOrder : Obligations.ChecksComeInOrder := by
  unfold Obligations.ChecksComeInOrder
  intro s hf
  refine ⟨fun ha => step_raises_of_fetchInstr hf (fetchInstr_misaligned ha),
    fun ha hr => step_raises_of_fetchInstr hf (fetchInstr_outside ha hr),
    fun ha hr hw => step_raises_illegalInstruction hf ha hr hw, fun ha hr rd rs1 o => ?_⟩
  have stepRaises {i : Instr} {f : Fault} (hi : decode s.fetchWord = .instr i)
      (hexec : exec i s = raise f s) : Raises (step s) s f := by
    rw [step_eq_exec_of_fetchInstr hf (fetchInstr_inside ha hr hi), hexec]
    exact raises_raise f s
  refine ⟨fun hi => ⟨fun hma => ?memMisaligned, fun hma hmr => ?memOutside⟩,
    fun hi ht => stepRaises hi (exec_jmpl_misaligned ht),
    fun hi ht => stepRaises hi (exec_retl_misaligned ht), fun hi hz => ?divideByZero⟩
  case memMisaligned =>
    obtain hi | hi := hi
    all_goals exact stepRaises hi (exec_memAccess_misaligned (rd := rd) hma (by simp))
  case memOutside =>
    obtain hi | hi := hi
    all_goals exact stepRaises hi (exec_memAccess_outside (rd := rd) hma hmr (by simp))
  case divideByZero =>
    obtain hi | hi | hi | hi := hi
    all_goals exact stepRaises hi (exec_divide_zero (rd := rd) (rs1 := rs1) hz (by simp))

end Sys2Proof.Machine
end

section
/-! PROOFS. The decoder and the encoder are inverse to each other (30_encoding.md R81 to R99): the word of
every instruction by its format, what the decoder can answer, and the rows a word lies in. -/

namespace Sys2Proof.Machine

/-! ## Decoding a word written out by format -/

/-- A word whose op or op3 is not JMPL's is not RETL's word (R97). -/
theorem ne_retlWord {w : Word} (h : opField w ≠ 0b10#2 ∨ op3Field w ≠ 0x38#6) : w ≠ retlWord := by
  rintro rfl
  revert h; decide

/-- A word of R92's table, RETL's apart, is decoded by its op3. -/
theorem decode_arith {w : Word} (hop : opField w = 0b10#2) (hretl : w ≠ retlWord) :
    decode w = decodeFormat3 arithOpcodes w := by
  simp [decode, hretl, hop]

/-- A word with op = 0b11 is decoded by R93's table. -/
theorem decode_mem {w : Word} (hop : opField w = 0b11#2) : decode w = decodeFormat3 memOpcodes w := by
  have hretl : w ≠ retlWord := ne_retlWord (.inl (by simp [hop]))
  simp [decode, hretl, hop]

/-- A word with op = 0b01 is a CALL (R96). -/
theorem decode_call {w : Word} (hop : opField w = 0b01#2) : decode w = .instr (.call (disp30Field w)) := by
  have hretl : w ≠ retlWord := ne_retlWord (.inl (by simp [hop]))
  simp [decode, hretl, hop]

/-- A word of R92's table gives its row back with its operands, unless it is RETL's. -/
theorem decode_arithWord {op3 : BitVec 6} {f : RegNum → RegNum → Operand2 → Instr}
    (hf : arithOpcodes.lookup op3 = some f) (rd rs1 : RegNum) (o : Operand2)
    (hretl : arithWord op3 rd rs1 o ≠ retlWord) : decode (arithWord op3 rd rs1 o) = .instr (f rd rs1 o) := by
  have hop : opField (arithWord op3 rd rs1 o) = 0b10#2 := opField_format3 ..
  rw [decode_arith hop hretl]
  simp [decodeFormat3, arithWord, hf]

/-- A word of any row of R92 but JMPL's gives its row back: it is not RETL's. -/
theorem decode_arithWord_of_ne {op3 : BitVec 6} {f : RegNum → RegNum → Operand2 → Instr}
    (hf : arithOpcodes.lookup op3 = some f) (rd rs1 : RegNum) (o : Operand2) (hop3 : op3 ≠ 0x38#6) :
    decode (arithWord op3 rd rs1 o) = .instr (f rd rs1 o) :=
  decode_arithWord hf rd rs1 o (ne_retlWord (.inr (by simpa [arithWord] using hop3)))

/-- A word of R93's table gives its row back with its operands, whatever the fill. -/
theorem decode_memWord {op3 : BitVec 6} {f : RegNum → RegNum → Operand2 → Instr}
    (hf : memOpcodes.lookup op3 = some f) (fill : BitVec 8) (rd rs1 : RegNum) (o : Operand2) :
    decode (format3 0b11#2 op3 fill rd rs1 o) = .instr (f rd rs1 o) := by
  rw [decode_mem (opField_format3 ..)]
  simp [decodeFormat3, hf]

/-- A branch word gives its cond's branch back (R94). -/
theorem decode_branchWord (c : BitVec 4) (d : BitVec 22) :
    decode (branchWord c d) = .instr (branchOfCond c d) := by
  rw [decode_format2 (opField_branchWord c d)]
  simp [decodeFormat2]

/-- A CALL word gives its displacement back (R81). -/
theorem decode_callWord (d : BitVec 30) : decode (0b01#2 ++ d) = .instr (.call d) := by
  obtain ⟨hop, hd⟩ := fields_callWord d
  rw [decode_call hop, hd]

/-- A JMPL word that is RETL's has RETL's fields (R97, R232). -/
theorem isRetlFields_of_arithWord {rd rs1 : RegNum} {o : Operand2}
    (h : arithWord 0x38#6 rd rs1 o = retlWord) : isRetlFields rd rs1 o = true := by
  have hrd : rd = rdField retlWord := by rw [← h, arithWord, rdField_format3]
  have hrs1 : rs1 = rs1Field retlWord := by rw [← h, arithWord, rs1Field_format3]
  have ho : o = operand2Field retlWord := by rw [← h, arithWord, operand2Field_format3]
  subst hrd hrs1 ho
  decide

/-- Settles O2: each word is decoded by its format; a well-formed JMPL's word is not RETL's. -/
theorem decodeOfEncodeIsTheInstruction : Obligations.DecodeOfEncodeIsTheInstruction := by
  unfold Obligations.DecodeOfEncodeIsTheInstruction
  intro fill i hwf
  cases i with
  | add rd rs1 o | and rd rs1 o | or rd rs1 o | xor rd rs1 o | sub rd rs1 o | andn rd rs1 o | orn rd rs1 o
  | xnor rd rs1 o | addx rd rs1 o | umul rd rs1 o | smul rd rs1 o | subx rd rs1 o | udiv rd rs1 o
  | sdiv rd rs1 o | addcc rd rs1 o | andcc rd rs1 o | orcc rd rs1 o | xorcc rd rs1 o | subcc rd rs1 o
  | andncc rd rs1 o | orncc rd rs1 o | xnorcc rd rs1 o | addxcc rd rs1 o | umulcc rd rs1 o
  | smulcc rd rs1 o | subxcc rd rs1 o | udivcc rd rs1 o | sdivcc rd rs1 o | sll rd rs1 o | srl rd rs1 o
  | sra rd rs1 o => exact decode_arithWord_of_ne rfl rd rs1 o (by decide)
  | ld rd rs1 o | st rd rs1 o => exact decode_memWord rfl fill rd rs1 o
  | bn d | be d | ble d | bl d | bleu d | bcs d | bneg d | bvs d | ba d | bne d | bg d | bge d | bgu d
  | bcc d | bpos d | bvc d => exact decode_branchWord _ d
  | call d => exact decode_callWord d
  | retl => rfl
  | jmpl rd rs1 o =>
    have hfields : isRetlFields rd rs1 o = false := by simpa [Instr.wf] using hwf
    exact decode_arithWord rfl rd rs1 o fun h => by simp [isRetlFields_of_arithWord h] at hfields
  | sethi rd k => exact decode_encode_sethi rd k

/-! ## What the decoder can answer -/

/-- What a word that the decoder accepts is, format by format, and the instruction it stands for (R99). -/
inductive Accepts (w : Word) : Instr → Prop
  | retl (hw : w = retlWord) : Accepts w .retl
  | call (hop : opField w = 0b01#2) : Accepts w (.call (disp30Field w))
  | sethi (hop : opField w = 0b00#2) (hop2 : op2Field w = 0b100#3) :
      Accepts w (.sethi (rdField w) (low22Field w))
  | branch (hop : opField w = 0b00#2) (hop2 : op2Field w = 0b010#3) (hannul : annulField w = false) :
      Accepts w (branchOfCond (condField w) (low22Field w))
  | arith {f : RegNum → RegNum → Operand2 → Instr} (hop : opField w = 0b10#2) (hw : w ≠ retlWord)
      (hf : (op3Field w, f) ∈ arithOpcodes) : Accepts w (f (rdField w) (rs1Field w) (operand2Field w))
  | mem {f : RegNum → RegNum → Operand2 → Instr} (hop : opField w = 0b11#2)
      (hf : (op3Field w, f) ∈ memOpcodes) : Accepts w (f (rdField w) (rs1Field w) (operand2Field w))

/-- The four values of op, the value of the last arm by exclusion. -/
theorem eq_three_of_ne {op : BitVec 2} (h0 : op ≠ 0b00#2) (h1 : op ≠ 0b01#2) (h2 : op ≠ 0b10#2) :
    op = 0b11#2 := by
  revert op; decide

/-- Everything the decoder can answer. -/
theorem accepts_of_decode {w : Word} {i : Instr} (h : decode w = .instr i) : Accepts w i := by
  unfold decode at h
  split_ifs at h with hretl hcall hformat2 harith
  · obtain rfl := Decoded.instr.inj h
    exact .retl hretl
  · obtain rfl := Decoded.instr.inj h
    exact .call hcall
  · unfold decodeFormat2 at h
    split_ifs at h with hsethi hbranch hannul
    · obtain rfl := Decoded.instr.inj h
      exact .sethi hformat2 hsethi
    · obtain rfl := Decoded.instr.inj h
      exact .branch hformat2 hbranch (by simpa using hannul)
  · obtain ⟨f, hf, rfl⟩ := decodeFormat3_instr h
    exact .arith harith hretl hf
  · obtain ⟨f, hf, rfl⟩ := decodeFormat3_instr h
    exact .mem (eq_three_of_ne hformat2 hcall harith) hf

/-! ## A word put together from its fields -/

/-- In the constant form the fields are the whole word (R82, R85). -/
theorem format3_fields {w : Word} (hi : iField w = true) (fill : BitVec 8) :
    format3 (opField w) (op3Field w) fill (rdField w) (rs1Field w) (operand2Field w) = w := by
  have hi13 : w.getLsbD 13 = true := hi
  rw [operand2Field, if_pos hi]
  apply BitVec.eq_of_getLsbD_eq; intro k hk
  interval_cases k <;>
    (simp only [format3, encodeOperand2, opField, op3Field, rdField, rs1Field, simm13Field,
      BitVec.getLsbD_append, BitVec.getLsbD_extractLsb']; simp [hi13])

/-- Every bit of a format 3 word but the fill comes from a field (R82, R86). -/
theorem getLsbD_format3_fields (w : Word) (fill : BitVec 8) {k : Nat} (hk : k < 5 ∨ 12 < k) :
    (format3 (opField w) (op3Field w) fill (rdField w) (rs1Field w) (operand2Field w)).getLsbD k =
      w.getLsbD k := by
  cases hi : iField w with
  | true => rw [format3_fields hi]
  | false =>
    have hi13 : w[13] = false := hi
    rw [operand2Field, if_neg (by simp [hi])]
    obtain hlow | hword | hbeyond : k < 5 ∨ (12 < k ∧ k < 32) ∨ 32 ≤ k := by omega
    · interval_cases k <;>
        (simp only [format3, encodeOperand2, rs2Field, BitVec.getLsbD_append,
          BitVec.getLsbD_extractLsb']; simp)
    · obtain ⟨h12, h32⟩ := hword
      interval_cases k <;>
        (simp only [format3, encodeOperand2, opField, op3Field, rdField, rs1Field,
          BitVec.getLsbD_append, BitVec.getLsbD_extractLsb']; simp [hi13])
    · rw [BitVec.getLsbD_of_ge _ _ hbeyond, BitVec.getLsbD_of_ge _ _ hbeyond]

/-- A branch word is its five fields (R84, R87). -/
theorem branch_fields (w : Word) :
    opField w ++ BitVec.ofBool (annulField w) ++ condField w ++ op2Field w ++ low22Field w = w := by
  apply BitVec.eq_of_getLsbD_eq; intro k hk
  interval_cases k <;>
    (simp only [opField, annulField, condField, op2Field, low22Field, BitVec.getLsbD_append,
      BitVec.getLsbD_extractLsb']; simp)

/-- A SETHI word is its four fields (R84). -/
theorem sethi_fields (w : Word) : opField w ++ rdField w ++ op2Field w ++ low22Field w = w := by
  apply BitVec.eq_of_getLsbD_eq; intro k hk
  interval_cases k <;>
    (simp only [opField, rdField, op2Field, low22Field, BitVec.getLsbD_append,
      BitVec.getLsbD_extractLsb']; simp)

/-- A CALL word is its two fields (R81). -/
theorem call_fields (w : Word) : opField w ++ disp30Field w = w := by
  apply BitVec.eq_of_getLsbD_eq; intro k hk
  interval_cases k <;>
    (simp only [opField, disp30Field, BitVec.getLsbD_append, BitVec.getLsbD_extractLsb']; simp)

/-- The fields of a branch word name it (R84). -/
theorem branchWord_fields {w : Word} (hop : opField w = 0b00#2) (hop2 : op2Field w = 0b010#3)
    (hannul : annulField w = false) : branchWord (condField w) (low22Field w) = w := by
  have h := branch_fields w
  rw [hop, hop2, hannul] at h
  exact h

/-! ## The encoder on the decoder's answers -/

/-- The encoder writes a row of R92's table by its op3. -/
theorem encodeWith_arith_row {op3 : BitVec 6} {f : RegNum → RegNum → Operand2 → Instr}
    (hf : (op3, f) ∈ arithOpcodes) (fill : BitVec 8) (rd rs1 : RegNum) (o : Operand2) :
    encodeWith fill (f rd rs1 o) = format3 0b10#2 op3 0#8 rd rs1 o := by
  have rows : ∀ row ∈ arithOpcodes, encodeWith fill (row.2 rd rs1 o) = arithWord row.1 rd rs1 o := by
    simp [arithOpcodes, encodeWith]
  exact rows (op3, f) hf

/-- The encoder writes a row of R93's table by its op3, with the fill. -/
theorem encodeWith_mem_row {op3 : BitVec 6} {f : RegNum → RegNum → Operand2 → Instr}
    (hf : (op3, f) ∈ memOpcodes) (fill : BitVec 8) (rd rs1 : RegNum) (o : Operand2) :
    encodeWith fill (f rd rs1 o) = format3 0b11#2 op3 fill rd rs1 o := by
  have rows : ∀ row ∈ memOpcodes, encodeWith fill (row.2 rd rs1 o) = format3 0b11#2 row.1 fill rd rs1 o := by
    simp [memOpcodes, encodeWith]
  exact rows (op3, f) hf

/-- The encoder writes the branch a cond names with that cond. -/
theorem encodeWith_branchOfCond (fill : BitVec 8) (c : BitVec 4) (d : BitVec 22) :
    encodeWith fill (branchOfCond c d) = branchWord c d := by
  obtain ⟨n⟩ := c
  fin_cases n <;> rfl

/-- The whole word comes back in formats 1 and 2 and in the constant form (R80 to R85). -/
theorem encodeWith_of_accepts {w : Word} {i : Instr} (h : Accepts w i) (fill : BitVec 8)
    (hw : opField w = 0b00#2 ∨ opField w = 0b01#2 ∨ iField w = true) : encodeWith fill i = w := by
  cases h with
  | retl hretl => exact hretl.symm
  | call hop =>
    have h := call_fields w
    rw [hop] at h
    exact h
  | sethi hop hop2 =>
    have h := sethi_fields w
    rw [hop, hop2] at h
    exact h
  | branch hop hop2 hannul => rw [encodeWith_branchOfCond, branchWord_fields hop hop2 hannul]
  | arith hop hretl hf =>
    have hi : iField w = true := by simpa [hop] using hw
    rw [encodeWith_arith_row hf, ← hop, format3_fields hi]
  | mem hop hf =>
    have hi : iField w = true := by simpa [hop] using hw
    rw [encodeWith_mem_row hf, ← hop, format3_fields hi]

/-- Every bit but the fill comes back (R86). -/
theorem getLsbD_encodeWith_of_accepts {w : Word} {i : Instr} (h : Accepts w i) (fill : BitVec 8) {k : Nat}
    (hk : k < 5 ∨ 12 < k) : (encodeWith fill i).getLsbD k = w.getLsbD k := by
  cases h with
  | retl hretl => rw [hretl]; rfl
  | call hop => rw [encodeWith_of_accepts (.call hop) fill (by simp [hop])]
  | sethi hop hop2 => rw [encodeWith_of_accepts (.sethi hop hop2) fill (by simp [hop])]
  | branch hop hop2 hannul => rw [encodeWith_of_accepts (.branch hop hop2 hannul) fill (by simp [hop])]
  | arith hop hretl hf => rw [encodeWith_arith_row hf, ← hop, getLsbD_format3_fields w _ hk]
  | mem hop hf => rw [encodeWith_mem_row hf, ← hop, getLsbD_format3_fields w _ hk]

/-- Settles O4: an accepted word is put together again from the fields it was decoded by. -/
theorem encodeOfDecodeIsTheWord : Obligations.EncodeOfDecodeIsTheWord := by
  unfold Obligations.EncodeOfDecodeIsTheWord
  intro w i fill h
  have hacc := accepts_of_decode h
  exact ⟨encodeWith_of_accepts hacc fill, fun k hk => getLsbD_encodeWith_of_accepts hacc fill hk⟩

/-! ## The decoder's answers are well-formed -/

/-- RETL's fields under JMPL's op and op3 are RETL's word (R97). -/
theorem eq_retlWord_of_fields {w : Word} (hop : opField w = 0b10#2) (hop3 : op3Field w = 0x38#6)
    (h : isRetlFields (rdField w) (rs1Field w) (operand2Field w) = true) : w = retlWord := by
  simp only [isRetlFields, Bool.and_eq_true, decide_eq_true_eq] at h
  obtain ⟨⟨hrd, hrs1⟩, ho⟩ := h
  have hi : iField w = true := by
    by_contra hreg
    simp [operand2Field, hreg] at ho
  rw [← format3_fields hi 0#8, hop, hop3, hrd, hrs1, ho]
  decide

/-- A row of R92's table is well-formed, but for JMPL's with RETL's fields. -/
theorem wf_arith_row {op3 : BitVec 6} {f : RegNum → RegNum → Operand2 → Instr}
    (hf : (op3, f) ∈ arithOpcodes) (rd rs1 : RegNum) (o : Operand2) :
    (f rd rs1 o).wf = true ∨ (op3 = 0x38#6 ∧ isRetlFields rd rs1 o = true) := by
  have rows : ∀ row ∈ arithOpcodes, (row.2 rd rs1 o).wf = true ∨
      (row.1 = 0x38#6 ∧ isRetlFields rd rs1 o = true) := by
    simp [arithOpcodes, Instr.wf]
  exact rows (op3, f) hf

/-- The rows of R93's table are well-formed. -/
theorem wf_mem_row {op3 : BitVec 6} {f : RegNum → RegNum → Operand2 → Instr}
    (hf : (op3, f) ∈ memOpcodes) (rd rs1 : RegNum) (o : Operand2) : (f rd rs1 o).wf = true := by
  have rows : ∀ row ∈ memOpcodes, (row.2 rd rs1 o).wf = true := by
    simp [memOpcodes, Instr.wf]
  exact rows (op3, f) hf

/-- Every branch is well-formed. -/
theorem wf_branchOfCond (c : BitVec 4) (d : BitVec 22) : (branchOfCond c d).wf = true := by
  obtain ⟨n⟩ := c
  fin_cases n <;> rfl

/-- Settles O3: only a JMPL can be ill-formed, and its word would then be RETL's, which is decoded
first. -/
theorem decodedInstructionsAreWellFormed : Obligations.DecodedInstructionsAreWellFormed := by
  unfold Obligations.DecodedInstructionsAreWellFormed
  intro w i h
  cases accepts_of_decode h with
  | retl | call | sethi => rfl
  | branch => exact wf_branchOfCond _ _
  | arith hop hretl hf =>
    exact (wf_arith_row hf _ _ _).resolve_right fun ⟨hop3, hfields⟩ =>
      hretl (eq_retlWord_of_fields hop hop3 hfields)
  | mem hop hf => exact wf_mem_row hf _ _ _

/-! ## The fill takes no part in decoding (R86) -/

/-- Two words that agree outside bits 12:5 have the same field wherever a field avoids those bits. -/
theorem extractLsb'_congr {w w' : Word} (h : ∀ k, k < 5 ∨ 12 < k → w'.getLsbD k = w.getLsbD k)
    {start len : Nat} (hfield : start + len ≤ 5 ∨ 12 < start) :
    w'.extractLsb' start len = w.extractLsb' start len := by
  apply BitVec.eq_of_getLsbD_eq; intro k hk
  rw [BitVec.getLsbD_extractLsb', BitVec.getLsbD_extractLsb', h _ (by omega)]

/-- The format 3 decoder reads the fields alone. -/
theorem decodeFormat3_congr {table : List (BitVec 6 × (RegNum → RegNum → Operand2 → Instr))}
    {w w' : Word} {i : Instr} (hop3 : op3Field w' = op3Field w) (hrd : rdField w' = rdField w)
    (hrs1 : rs1Field w' = rs1Field w) (ho : operand2Field w' = operand2Field w)
    (h : decodeFormat3 table w = .instr i) : decodeFormat3 table w' = .instr i := by
  unfold decodeFormat3 at h ⊢
  rw [hop3, hrd, hrs1, ho]
  split at h
  case h_1 f hf => simpa [hf] using h
  case h_2 => simp at h

/-- Settles O5: the fields the format 3 decoder reads avoid bits 12:5 of a register form, and RETL's word
is a constant form. -/
theorem fillBitsSelectNothing : Obligations.FillBitsSelectNothing := by
  unfold Obligations.FillBitsSelectNothing
  intro w w' i hop hi hagree h
  have hi' : iField w' = false := (hagree 13 (by decide)).trans hi
  have ne_retl {u : Word} (hu : iField u = false) : u ≠ retlWord := by
    rintro rfl
    exact absurd hu (by decide)
  have hop' : opField w' = opField w := extractLsb'_congr hagree (by decide)
  have hop3 : op3Field w' = op3Field w := extractLsb'_congr hagree (by decide)
  have hrd : rdField w' = rdField w := extractLsb'_congr hagree (by decide)
  have hrs1 : rs1Field w' = rs1Field w := extractLsb'_congr hagree (by decide)
  have hrs2 : rs2Field w' = rs2Field w := extractLsb'_congr hagree (by decide)
  have ho : operand2Field w' = operand2Field w := by simp [operand2Field, hi, hi', hrs2]
  obtain hop | hop := hop
  · rw [decode_arith hop (ne_retl hi)] at h
    rw [decode_arith (hop'.trans hop) (ne_retl hi')]
    exact decodeFormat3_congr hop3 hrd hrs1 ho h
  · rw [decode_mem hop] at h
    rw [decode_mem (hop'.trans hop)]
    exact decodeFormat3_congr hop3 hrd hrs1 ho h

/-! ## The rows of the opcode table (R92 to R97) -/

/-- Each row of the decoder's table for op = 0b10 has its row of the opcode table. -/
theorem arithRow_mem_opcodeRows {op3 : BitVec 6} {f : RegNum → RegNum → Operand2 → Instr}
    (hf : (op3, f) ∈ arithOpcodes) (rd rs1 : RegNum) (o : Operand2) :
    arithRow (mnemonic (f rd rs1 o)) op3 ∈ opcodeRows := by
  have rows : ∀ row ∈ arithOpcodes, arithRow (mnemonic (row.2 rd rs1 o)) row.1 ∈ opcodeRows := by
    simp [arithOpcodes, mnemonic, opcodeRows, arithRows]
  exact rows (op3, f) hf

/-- LD's and ST's words lie in their rows. -/
theorem exists_memRow {w : Word} {f : RegNum → RegNum → Operand2 → Instr} (hop : opField w = 0b11#2)
    (hf : (op3Field w, f) ∈ memOpcodes) (rd rs1 : RegNum) (o : Operand2) :
    ∃ r ∈ opcodeRows, r.mnemonic = mnemonic (f rd rs1 o) ∧ r.matchesWord w = true := by
  obtain ⟨hop3, rfl⟩ | ⟨hop3, rfl⟩ :
      (op3Field w = 0x00#6 ∧ f = .ld) ∨ (op3Field w = 0x04#6 ∧ f = .st) := by
    simpa [memOpcodes] using hf
  · exact ⟨_, by decide, rfl, (ldRow_matchesWord_iff w).2 ⟨hop, hop3⟩⟩
  · exact ⟨_, by decide, rfl, (stRow_matchesWord_iff w).2 ⟨hop, hop3⟩⟩

/-- Each value of cond has its row of the opcode table, under the mnemonic of its branch. -/
theorem branchRow_mem_opcodeRows (c : BitVec 4) (d : BitVec 22) :
    branchRow (mnemonic (branchOfCond c d)) c ∈ opcodeRows := by
  obtain ⟨n⟩ := c
  fin_cases n <;> simp [branchOfCond, mnemonic, opcodeRows, branchRows]

/-- An accepted word lies in a row with its instruction's mnemonic. -/
theorem exists_row_of_accepts {w : Word} {i : Instr} (h : Accepts w i) :
    ∃ r ∈ opcodeRows, r.mnemonic = mnemonic i ∧ r.matchesWord w = true := by
  cases h with
  | retl hw => exact ⟨_, by decide, rfl, (retlRow_matchesWord_iff w).2 hw⟩
  | call hop => exact ⟨_, by decide, rfl, (callRow_matchesWord_iff w).2 hop⟩
  | sethi hop hop2 => exact ⟨_, by decide, rfl, (sethiRow_matchesWord_iff w).2 ⟨hop, hop2⟩⟩
  | branch hop hop2 hannul =>
    exact ⟨_, branchRow_mem_opcodeRows _ _, rfl,
      (branchRow_matchesWord_iff _ _ w).2 ⟨hop, hannul, rfl, hop2⟩⟩
  | arith hop hw hf =>
    exact ⟨_, arithRow_mem_opcodeRows hf _ _ _, rfl, (arithRow_matchesWord_iff _ _ w).2 ⟨hop, rfl⟩⟩
  | mem hop hf => exact exists_memRow hop hf _ _ _

/-- A word whose op3 the table lists is decoded by it. -/
theorem decodeFormat3_of_mem {table : List (BitVec 6 × (RegNum → RegNum → Operand2 → Instr))} {w : Word}
    (h : op3Field w ∈ table.map Prod.fst) : ∃ i, decodeFormat3 table w = .instr i := by
  have hfound : table.lookup (op3Field w) ≠ none := by
    obtain ⟨⟨op3, f⟩, hmem, rfl⟩ := List.mem_map.1 h
    intro hnone
    simpa using List.lookup_eq_none_iff.1 hnone _ hmem
  obtain ⟨f, hf⟩ := Option.ne_none_iff_exists'.1 hfound
  exact ⟨f (rdField w) (rs1Field w) (operand2Field w), by simp only [decodeFormat3, hf]⟩

/-- The decoder accepts every word whose fields are assigned (R99). -/
theorem decode_of_assigned {w : Word} (h : Assigned w) : ∃ i, decode w = .instr i := by
  by_cases hretl : w = retlWord
  · exact ⟨.retl, by simp [decode, hretl]⟩
  obtain ⟨hop, hop2 | ⟨hannul, hop2⟩⟩ | hop | ⟨hop, hop3⟩ | ⟨hop, hop3⟩ := h
  · exact ⟨_, by rw [decode_format2 hop, decodeFormat2, if_pos hop2]⟩
  · exact ⟨_, by rw [decode_format2 hop]; simp [decodeFormat2, hop2, hannul]; rfl⟩
  · exact ⟨_, decode_call hop⟩
  · rw [decode_arith hop hretl]; exact decodeFormat3_of_mem hop3
  · rw [decode_mem hop]; exact decodeFormat3_of_mem hop3

/-- Settles O6: an accepted word lies in its instruction's row, and a row's word has assigned fields. -/
theorem acceptedWordsAreTheTableRows : Obligations.AcceptedWordsAreTheTableRows := by
  unfold Obligations.AcceptedWordsAreTheTableRows
  exact fun w => ⟨fun i h => exists_row_of_accepts (accepts_of_decode h),
    fun h => decode_of_assigned ((exists_row_iff_assigned w).1 h)⟩

/-- Two rows that share a word have patterns that agree under both masks. -/
theorem patterns_agree {w : Word} {r q : OpcodeRow} (hr : r.matchesWord w = true)
    (hq : q.matchesWord w = true) : r.pattern &&& q.mask = q.pattern &&& r.mask := by
  rw [matchesWord_iff] at hr hq
  rw [← hr, ← hq, BitVec.and_assoc, BitVec.and_assoc, BitVec.and_comm r.mask]

/-- The patterns of no two rows agree under both masks, but for RETL's and JMPL's. -/
theorem rows_disjoint : ∀ r ∈ opcodeRows, ∀ q ∈ opcodeRows, r.pattern &&& q.mask = q.pattern &&& r.mask →
    r = q ∨ (r.mnemonic = "RETL" ∧ q.mnemonic = "JMPL") ∨ (r.mnemonic = "JMPL" ∧ q.mnemonic = "RETL") := by
  decide

/-- Settles O7: rows that share a word agree under both masks. -/
theorem rowsDoNotOverlap : Obligations.RowsDoNotOverlap := by
  unfold Obligations.RowsDoNotOverlap
  exact fun w r q hr hq hrw hqw => rows_disjoint r hr q hq (patterns_agree hrw hqw)

end Sys2Proof.Machine
end

section
/-! PROOFS. What an execution can do, said once for all instructions (10_state.md R23, R28;
60_exceptions.md R272), and the frames, the faults and the invariant that follow. -/

namespace Sys2Proof.Machine

/-! ## The divides (42_mul_div.md R165 to R169) -/

/-- Everything a UDIV does. -/
theorem exec_udiv_eq (rd rs1 : RegNum) (o : Operand2) (s : State) :
    exec (.udiv rd rs1 o) s =
      if s.operand2 o = 0x00000000#32 then raise (.divisionByZero s.pc) s
      else complete rd (unsignedQuotient (s.readReg rs1) (s.operand2 o)) s := rfl

/-- Everything a UDIVcc does. -/
theorem exec_udivcc_eq (rd rs1 : RegNum) (o : Operand2) (s : State) :
    exec (.udivcc rd rs1 o) s =
      if s.operand2 o = 0x00000000#32 then raise (.divisionByZero s.pc) s
      else completeCc rd (unsignedQuotient (s.readReg rs1) (s.operand2 o))
        (iccDiv (unsignedQuotient (s.readReg rs1) (s.operand2 o)) false) s := rfl

/-- Everything an SDIV does; the overflow case draws its result. -/
theorem exec_sdiv_eq (rd rs1 : RegNum) (o : Operand2) (s : State) :
    exec (.sdiv rd rs1 o) s =
      if s.operand2 o = 0x00000000#32 then raise (.divisionByZero s.pc) s
      else if signedQuotientOverflows (s.readReg rs1) (s.operand2 o) then complete rd s.drawnWord s.countDraw
      else complete rd (signedQuotient (s.readReg rs1) (s.operand2 o)) s := rfl

/-- Everything an SDIVcc does; the overflow case draws its result and its flags. -/
theorem exec_sdivcc_eq (rd rs1 : RegNum) (o : Operand2) (s : State) :
    exec (.sdivcc rd rs1 o) s =
      if s.operand2 o = 0x00000000#32 then raise (.divisionByZero s.pc) s
      else if signedQuotientOverflows (s.readReg rs1) (s.operand2 o) then
        completeCc rd s.drawnWord s.drawnIcc s.countDraw
      else completeCc rd (signedQuotient (s.readReg rs1) (s.operand2 o))
        (iccDiv (signedQuotient (s.readReg rs1) (s.operand2 o)) false) s := rfl

/-! ## The effect of an execution -/

/-- The faults an instruction can raise at a state (60_exceptions.md R272). -/
def instrFaults (i : Instr) (s : State) : List Fault :=
  match i with
  | .ld _ rs1 o => [.memAddressNotAligned (s.address rs1 o), .dataAccess (s.address rs1 o)]
  | .st _ rs1 o => [.memAddressNotAligned (s.address rs1 o), .dataAccess (s.address rs1 o)]
  | .jmpl _ rs1 o => [.memAddressNotAligned (s.address rs1 o)]
  | .retl => [.memAddressNotAligned (s.readReg 15#5 + 8#32)]
  | .udiv _ _ _ => [.divisionByZero s.pc]
  | .sdiv _ _ _ => [.divisionByZero s.pc]
  | .udivcc _ _ _ => [.divisionByZero s.pc]
  | .sdivcc _ _ _ => [.divisionByZero s.pc]
  | _ => []

/-- What an execution of an instruction can make of a state: raise one of its faults, write its result
(its flags with it, after a draw or without one), store a word, or move pc (with a link or without one). -/
inductive Effect (i : Instr) (s : State) : State → Prop
  | faults {f : Fault} (hf : f ∈ instrFaults i s) : Effect i s { s with faulted := some f }
  | computes {rd : RegNum} {v : Word} (hd : destReg i = some rd) (hc : writesIcc i = false) :
      Effect i s (s.writeReg rd v).advance
  | computesCc {rd : RegNum} {v : Word} {f : Icc} (hd : destReg i = some rd) (hc : writesIcc i = true) :
      Effect i s ((s.writeReg rd v).setIcc f).advance
  | draws {rd : RegNum} {v : Word} (hd : destReg i = some rd) (hc : writesIcc i = false) :
      Effect i s (s.countDraw.writeReg rd v).advance
  | drawsCc {rd : RegNum} {v : Word} {f : Icc} (hd : destReg i = some rd) (hc : writesIcc i = true) :
      Effect i s ((s.countDraw.writeReg rd v).setIcc f).advance
  | stores {rd rs1 : RegNum} {o : Operand2} (hi : i = .st rd rs1 o)
      (ha : isAligned (s.address rs1 o) = true) (hr : s.inRegions (s.address rs1 o) = true) :
      Effect i s (s.storeWord (s.address rs1 o) (s.readReg rd)).advance
  | transfers {a : Word} (hd : destReg i = none) (hc : writesIcc i = false)
      (ha : isAligned s.pc = true → isAligned a = true) : Effect i s (s.setPc a)
  | links {rd : RegNum} {a : Word} (hd : destReg i = some rd) (hc : writesIcc i = false)
      (ha : isAligned s.pc = true → isAligned a = true) : Effect i s ((s.writeReg rd s.pc).setPc a)

/-- Both ways of a branch keep pc a multiple of 4 (10_state.md R27). -/
theorem isAligned_branch {pc : Word} (taken : Bool) (d : BitVec 22) (h : isAligned pc = true) :
    isAligned (if taken then branchTarget pc d else pc + 4#32) = true := by
  cases taken
  · exact isAligned_add4 h
  · exact isAligned_add4mul _ h

/-- A branch moves pc and nothing else. -/
theorem effect_of_branchIf {i : Instr} {s : State} {taken : Bool} {d : BitVec 22}
    (h : exec i s = branchIf taken d s) (hd : destReg i = none) (hc : writesIcc i = false) :
    ∃ t, exec i s = .next t ∧ Effect i s t :=
  ⟨_, h.trans (branchIf_eq taken d s), .transfers hd hc (isAligned_branch taken d)⟩

/-- Every execution answers a next state, and an effect of the instruction leads to it. -/
theorem exec_effect (i : Instr) (s : State) : ∃ t, exec i s = .next t ∧ Effect i s t := by
  cases i with
  | add rd rs1 o | and rd rs1 o | or rd rs1 o | xor rd rs1 o | sub rd rs1 o | andn rd rs1 o | orn rd rs1 o
  | xnor rd rs1 o | addx rd rs1 o | umul rd rs1 o | smul rd rs1 o | subx rd rs1 o | sll rd rs1 o
  | srl rd rs1 o | sra rd rs1 o => exact ⟨_, rfl, .computes rfl rfl⟩
  | sethi rd k => exact ⟨_, rfl, .computes rfl rfl⟩
  | addcc rd rs1 o | andcc rd rs1 o | orcc rd rs1 o | xorcc rd rs1 o | subcc rd rs1 o | andncc rd rs1 o
  | orncc rd rs1 o | xnorcc rd rs1 o | addxcc rd rs1 o | umulcc rd rs1 o | smulcc rd rs1 o
  | subxcc rd rs1 o => exact ⟨_, rfl, .computesCc rfl rfl⟩
  | udiv rd rs1 o =>
    rw [exec_udiv_eq]
    split_ifs
    · exact ⟨_, rfl, .faults (by simp [instrFaults])⟩
    · exact ⟨_, rfl, .computes rfl rfl⟩
  | udivcc rd rs1 o =>
    rw [exec_udivcc_eq]
    split_ifs
    · exact ⟨_, rfl, .faults (by simp [instrFaults])⟩
    · exact ⟨_, rfl, .computesCc rfl rfl⟩
  | sdiv rd rs1 o =>
    rw [exec_sdiv_eq]
    split_ifs
    · exact ⟨_, rfl, .faults (by simp [instrFaults])⟩
    · exact ⟨_, rfl, .draws rfl rfl⟩
    · exact ⟨_, rfl, .computes rfl rfl⟩
  | sdivcc rd rs1 o =>
    rw [exec_sdivcc_eq]
    split_ifs
    · exact ⟨_, rfl, .faults (by simp [instrFaults])⟩
    · exact ⟨_, rfl, .drawsCc rfl rfl⟩
    · exact ⟨_, rfl, .computesCc rfl rfl⟩
  | ld rd rs1 o =>
    rw [exec_ld_eq]
    split_ifs
    · exact ⟨_, rfl, .computes rfl rfl⟩
    · exact ⟨_, rfl, .faults (by simp [instrFaults])⟩
    · exact ⟨_, rfl, .faults (by simp [instrFaults])⟩
  | st rd rs1 o =>
    rw [exec_st_eq]
    split_ifs with ha hr
    · exact ⟨_, rfl, .stores rfl ha hr⟩
    · exact ⟨_, rfl, .faults (by simp [instrFaults])⟩
    · exact ⟨_, rfl, .faults (by simp [instrFaults])⟩
  | bn d => exact effect_of_branchIf (taken := condBn s.icc) (d := d) rfl rfl rfl
  | ba d => exact effect_of_branchIf (taken := condBa s.icc) (d := d) rfl rfl rfl
  | be d | ble d | bl d | bleu d | bcs d | bneg d | bvs d | bne d | bg d | bge d | bgu d | bcc d | bpos d
  | bvc d => exact effect_of_branchIf rfl rfl rfl
  | call d => exact ⟨_, exec_call_eq d s, .links rfl rfl (isAligned_callTarget d)⟩
  | retl =>
    rw [exec_retl_eq]
    split_ifs with ha
    · exact ⟨_, rfl, .transfers rfl rfl fun _ => ha⟩
    · exact ⟨_, rfl, .faults (by simp [instrFaults])⟩
  | jmpl rd rs1 o =>
    rw [exec_jmpl_eq]
    split_ifs with ha
    · exact ⟨_, rfl, .links rfl rfl fun _ => ha⟩
    · exact ⟨_, rfl, .faults (by simp [instrFaults, State.address])⟩

/-- A next state of an execution is the effect of its instruction. -/
theorem effect_of_exec {i : Instr} {s t : State} (h : exec i s = .next t) : Effect i s t := by
  obtain ⟨u, hu, heffect⟩ := exec_effect i s
  obtain rfl := Host.Outcome.next.inj (hu.symm.trans h)
  exact heffect

/-- A next state of a step is the fault of the fetch, or the effect of the instruction fetched. -/
theorem next_of_step {s t : State} (h : step s = .next t) :
    s.faulted = none ∧
      ((∃ f, t = { s with faulted := some f }) ∨ ∃ i, exec i s = .next t ∧ Effect i s t) := by
  obtain ⟨f, -, hs⟩ | ⟨hn, f, -, hs⟩ | ⟨hn, i, -, hs⟩ := step_cases s
  · simp [hs] at h
  · exact ⟨hn, .inl ⟨f, raise_next (hs.symm.trans h)⟩⟩
  · have hexec := hs.symm.trans h
    exact ⟨hn, .inr ⟨i, hexec, effect_of_exec hexec⟩⟩

/-! ## Where a step stops (60_exceptions.md R270) -/

/-- Every state that is not faulted has a next one. -/
theorem exists_next_of_unfaulted {s : State} (hn : s.faulted = none) : ∃ t, step s = .next t := by
  obtain ⟨f, hf, -⟩ | ⟨-, f, -, hs⟩ | ⟨-, i, -, hs⟩ := step_cases s
  · simp [hf] at hn
  · exact ⟨_, hs⟩
  · obtain ⟨t, ht, -⟩ := exec_effect i s
    exact ⟨t, hs.trans ht⟩

/-- Settles O13: neither the fetch's faults nor an execution leave a step without a next state. -/
theorem unfaultedStatesHaveASuccessor : Obligations.UnfaultedStatesHaveASuccessor := by
  unfold Obligations.UnfaultedStatesHaveASuccessor
  exact fun _ hn => exists_next_of_unfaulted hn

/-- Settles O12: a step is decided by the faulted condition, and goes on where there is none. -/
theorem stepStopsOnlyWhenFaulted : Obligations.StepStopsOnlyWhenFaulted := by
  unfold Obligations.StepStopsOnlyWhenFaulted
  intro s
  cases hf : s.faulted with
  | some g => simp [step, hf]
  | none =>
    obtain ⟨t, ht⟩ := exists_next_of_unfaulted hf
    simp [ht]

/-! ## Faults (60_exceptions.md R270, R272, R274) -/

/-- An execution enters the faulted condition and does nothing else, or leaves it as it was. -/
theorem Effect.faulted {i : Instr} {s t : State} (h : Effect i s t) :
    (∃ f ∈ instrFaults i s, t = { s with faulted := some f }) ∨ t.faulted = s.faulted := by
  cases h with
  | faults hf => exact .inl ⟨_, hf, rfl⟩
  | computes | computesCc | draws | drawsCc | stores | transfers | links => exact .inr (by simp)

/-- From a state without a fault an execution reaches a fault of its instruction, and nothing but that
changes. -/
theorem Effect.fault_mem {i : Instr} {s t : State} {f : Fault} (h : Effect i s t) (hn : s.faulted = none)
    (hf : t.faulted = some f) : f ∈ instrFaults i s ∧ t = { s with faulted := some f } := by
  obtain ⟨g, hg, rfl⟩ | hsame := h.faulted
  · obtain rfl : g = f := by simpa using hf
    exact ⟨hg, rfl⟩
  · simp [hsame, hn] at hf

/-- Settles O14: the fetch's fault is raised alone, and so is an instruction's. -/
theorem faultingStepWritesNothingElse : Obligations.FaultingStepWritesNothingElse := by
  unfold Obligations.FaultingStepWritesNothingElse
  intro s t f hn h hf
  obtain ⟨-, ⟨g, rfl⟩ | ⟨i, -, heffect⟩⟩ := next_of_step h
  · obtain rfl : g = f := by simpa using hf
    rfl
  · exact (heffect.fault_mem hn hf).2

/-- The instructions that never fault have no fault of their own. -/
theorem instrFaults_of_neverFaults {i : Instr} (h : neverFaults i = true) (s : State) :
    instrFaults i s = [] := by
  cases i with
  | ld | st | udiv | sdiv | udivcc | sdivcc | retl | jmpl => simp [neverFaults] at h
  | _ => rfl

/-- Settles O15: an execution raises a fault of its instruction's list or none. -/
theorem onlyListedInstructionsFault : Obligations.OnlyListedInstructionsFault := by
  unfold Obligations.OnlyListedInstructionsFault
  refine ⟨fun i s t hnever h => ?never, fun rd rs1 o s t f hn hf => ?listed⟩
  case never =>
    obtain ⟨f, hf, -⟩ | hsame := (effect_of_exec h).faulted
    · simp [instrFaults_of_neverFaults hnever] at hf
    · exact hsame
  case listed =>
    have listed {i : Instr} (h : exec i s = .next t) : f ∈ instrFaults i s :=
      ((effect_of_exec h).fault_mem hn hf).1
    refine ⟨?_, fun h => ?_, fun h => ?_, ?_⟩
    · rintro (h | h) <;> simpa [instrFaults] using listed h
    · simpa [instrFaults] using listed h
    · simpa [instrFaults] using listed h
    · rintro (h | h | h | h) <;> simpa [instrFaults] using listed h

/-! ## Frames (10_state.md R21, R23, R28; 20_memory.md R55, R64) -/

/-- Only the cc instructions write icc. -/
theorem Effect.icc {i : Instr} {s t : State} (h : Effect i s t) (hc : writesIcc i = false) :
    t.icc = s.icc := by
  cases h with
  | computesCc _ hcc | drawsCc _ hcc => simp [hc] at hcc
  | faults | computes | draws | stores | transfers | links => simp

/-- Settles O16: the two effects that write icc are those of the cc instructions. -/
theorem onlyCcInstructionsChangeIcc : Obligations.OnlyCcInstructionsChangeIcc := by
  unfold Obligations.OnlyCcInstructionsChangeIcc
  exact fun _ _ _ hc h => (effect_of_exec h).icc hc

/-- An execution leaves every register but its instruction's destination. -/
theorem Effect.readReg {i : Instr} {s t : State} {r : RegNum} (h : Effect i s t)
    (hr : destReg i ≠ some r) : t.readReg r = s.readReg r := by
  have other {rd : RegNum} (hd : destReg i = some rd) : r ≠ rd := by
    rintro rfl
    exact hr hd
  cases h with
  | computes hd | computesCc hd | draws hd | drawsCc hd | links hd =>
    simp [readReg_writeReg_other _ (other hd)]
  | stores | transfers => simp
  | faults => rfl

/-- Settles O18: every effect that writes a register writes the destination. -/
theorem otherRegistersKeepTheirValue : Obligations.OtherRegistersKeepTheirValue := by
  unfold Obligations.OtherRegistersKeepTheirValue
  exact fun _ _ _ _ h hr => (effect_of_exec h).readReg hr

/-- Settles O19: x[0] has no storage, and every other register is not the destination. -/
theorem registerZeroIsHardwired : Obligations.RegisterZeroIsHardwired := by
  unfold Obligations.RegisterZeroIsHardwired
  refine ⟨readReg_zero, fun i s t hd h r => ?_⟩
  by_cases hr : r = 0#5
  · subst hr
    rw [readReg_zero, readReg_zero]
  · exact (effect_of_exec h).readReg (by rw [hd]; simpa using Ne.symm hr)

/-- An execution leaves every byte that its instruction does not store to. -/
theorem Effect.dataByte {i : Instr} {s t : State} {a : Nat} (h : Effect i s t) (ha : ¬ storesTo i s a) :
    t.dataByte a = s.dataByte a := by
  cases h with
  | @stores rd rs1 o hi =>
    have outside : a < (s.address rs1 o).toNat ∨ (s.address rs1 o).toNat + 3 < a := by
      by_contra hin
      exact ha ⟨rd, rs1, o, hi, by omega, by omega⟩
    rw [dataByte_advance, dataByte_storeWord_outside s _ _ outside]
  | computes | computesCc | draws | drawsCc | transfers | links => simp
  | faults => rfl

/-- No execution changes the parameters or the program memory. -/
theorem Effect.fixed {i : Instr} {s t : State} (h : Effect i s t) :
    t.params = s.params ∧ t.progMem = s.progMem := by
  cases h with
  | faults | computes | computesCc | draws | drawsCc | stores | transfers | links => simp

/-- Settles O20: only an ST's effect writes a byte, and none writes the program memory. -/
theorem otherBytesKeepTheirValue : Obligations.OtherBytesKeepTheirValue := by
  unfold Obligations.OtherBytesKeepTheirValue
  intro i s t h
  have heffect := effect_of_exec h
  exact ⟨fun a ha => heffect.dataByte ha, fun a => by rw [State.progByte, State.progByte, heffect.fixed.2]⟩

/-- Settles O21: neither the fetch's fault nor an effect touches the two fields. -/
theorem parametersAndProgramMemoryAreFixed : Obligations.ParametersAndProgramMemoryAreFixed := by
  unfold Obligations.ParametersAndProgramMemoryAreFixed
  intro s t h
  obtain ⟨-, ⟨f, rfl⟩ | ⟨i, -, heffect⟩⟩ := next_of_step h
  · exact ⟨rfl, rfl⟩
  · exact heffect.fixed

/-! ## The invariant (10_state.md R27; 20_memory.md R53, R57) -/

/-- An execution keeps pc a multiple of 4. -/
theorem Effect.pcAligned {i : Instr} {s t : State} (h : Effect i s t) (hpc : isAligned s.pc = true) :
    isAligned t.pc = true := by
  cases h with
  | faults => exact hpc
  | computes | computesCc | draws | drawsCc | stores => simpa using isAligned_add4 hpc
  | transfers _ _ ha | links _ _ ha => exact ha hpc

/-- Settles O24: the fetch's fault leaves pc, and every effect keeps it aligned. -/
theorem pcStaysAligned : Obligations.PcStaysAligned := by
  unfold Obligations.PcStaysAligned
  intro s t hpc h
  obtain ⟨-, ⟨f, rfl⟩ | ⟨i, -, heffect⟩⟩ := next_of_step h
  · exact hpc
  · exact heffect.pcAligned hpc

/-- A memory of canonical form that holds bytes of the regions only. -/
def Memory.Within (regions : List Config.Region) (m : Memory) : Prop :=
  Memory.wf m = true ∧ ∀ c ∈ m, byteInRegions regions c.1 = true

/-- The four bytes of an aligned word of the regions lie in the regions (20_memory.md R57). -/
theorem byteInRegions_of_word {regions : List Config.Region} {a k : Nat} (ha : a % 4 = 0)
    (hr : holdsWordAt regions a = true) (hk : a ≤ k ∧ k ≤ a + 3) : byteInRegions regions k = true := by
  have hword : k / 4 * 4 = a := by omega
  rw [byteInRegions, hword, hr]

/-- Storing a word of the regions keeps the form and the regions. -/
theorem within_writeWord {regions : List Config.Region} {m : Memory} {a : Word} (v : Word)
    (ha : isAligned a = true) (hr : holdsWordAt regions a.toNat = true) (h : m.Within regions) :
    (m.writeWord a.toNat v).Within regions := by
  obtain ⟨hwf, hin⟩ := h
  refine ⟨wf_writeWord m _ v (aligned_end a ha) hwf, fun c hc => ?_⟩
  obtain hword | hold := mem_writeWord m _ v c hc
  · exact byteInRegions_of_word ((isAligned_iff a).1 ha) hr hword
  · exact hin c hold

/-- The invariant, memory by memory. -/
theorem inv_iff (s : State) :
    s.Inv ↔ isAligned s.pc = true ∧ Memory.Within s.params.memRegions s.mem ∧
      Memory.Within s.params.memRegions s.progMem :=
  ⟨fun h => ⟨h.pcAligned, ⟨h.memCanonical, h.memInRegions⟩, h.progCanonical, h.progInRegions⟩,
    fun ⟨hpc, ⟨hm, hmr⟩, hp, hpr⟩ => ⟨hm, hp, hpc, hmr, hpr⟩⟩

/-- An execution keeps the memory's form, and stores inside the regions only. -/
theorem Effect.within {i : Instr} {s t : State} (h : Effect i s t)
    (hm : Memory.Within s.params.memRegions s.mem) : Memory.Within s.params.memRegions t.mem := by
  cases h with
  | stores _ ha hr => exact within_writeWord _ ha hr hm
  | faults => exact hm
  | computes | computesCc | draws | drawsCc | transfers | links => simpa using hm

/-- Settles O22: a fault changes no field of the invariant; an execution keeps pc aligned, stores words of
MEM_REGIONS only, and leaves the program memory and the parameters. -/
theorem stepKeepsTheInvariant : Obligations.StepKeepsTheInvariant := by
  unfold Obligations.StepKeepsTheInvariant
  intro s t hinv h
  rw [inv_iff] at hinv ⊢
  obtain ⟨hpc, hm, hp⟩ := hinv
  obtain ⟨-, ⟨f, rfl⟩ | ⟨i, -, heffect⟩⟩ := next_of_step h
  · exact ⟨hpc, hm, hp⟩
  · obtain ⟨hparams, hprog⟩ := heffect.fixed
    rw [hparams, hprog]
    exact ⟨heffect.pcAligned hpc, heffect.within hm, hp⟩

/-- Settles O23: nothing is loaded, and 0 is a multiple of 4. -/
theorem resetMeetsTheInvariant : Obligations.ResetMeetsTheInvariant := by
  unfold Obligations.ResetMeetsTheInvariant
  rw [inv_iff]
  exact ⟨rfl, ⟨rfl, by simp [State.reset]⟩, rfl, by simp [State.reset]⟩

end Sys2Proof.Machine
end

section
/-! PROOFS. The instructions that only compute: the logical instructions (40_logical.md R120 to R132),
and add and subtract with their exact flags (41_add_sub.md R140 to R149). -/

namespace Sys2Proof.Machine

/-! ## Completing with flags -/

/-- An instruction that completes with flags writes x[rd], icc and pc, and nothing else. -/
theorem completesWith_of_completeCc {i : Instr} {s : State} {rd : RegNum} {v : Word} {f : Icc}
    (h : exec i s = completeCc rd v f s) : CompletesWith i s rd v f := by
  refine ⟨((s.writeReg rd v).setIcc f).advance, h, fun r => ?_, ?_, ?_, ?_, ?_⟩
  · simpa using readReg_writeReg s rd r v
  · simp
  · simp
  · simp [SameMemories]
  · simp [SameRest]

/-! ## Logical instructions -/

/-- XNOR's bit says that the two bits are equal (R126). -/
theorem getLsbD_xnor (a b : Word) {k : Nat} (hk : k < 32) :
    (~~~(a ^^^ b)).getLsbD k = (a.getLsbD k == b.getLsbD k) := by
  simp only [BitVec.getLsbD_not, BitVec.getLsbD_xor, hk]
  cases a.getLsbD k <;> cases b.getLsbD k <;> rfl

/-- Settles O28: each instruction completes with the bitwise operation, and bit k of it is the operation
on bits k. -/
theorem logicalResultsBitByBit : Obligations.LogicalResultsBitByBit := by
  unfold Obligations.LogicalResultsBitByBit
  intro rd rs1 o s a b
  refine ⟨⟨a &&& b, fun k hk => ?_, completesWith_of_complete rfl⟩,
    ⟨a ||| b, fun k hk => ?_, completesWith_of_complete rfl⟩,
    ⟨a ^^^ b, fun k hk => ?_, completesWith_of_complete rfl⟩,
    ⟨a &&& ~~~b, fun k hk => ?_, completesWith_of_complete rfl⟩,
    ⟨a ||| ~~~b, fun k hk => ?_, completesWith_of_complete rfl⟩,
    ⟨~~~(a ^^^ b), fun k hk => getLsbD_xnor a b hk, completesWith_of_complete rfl⟩⟩
  all_goals simp [hk]

/-- Settles O29: the same results, with the flags of `iccLogic`. -/
theorem logicalCcResultsAndFlags : Obligations.LogicalCcResultsAndFlags := by
  unfold Obligations.LogicalCcResultsAndFlags
  intro rd rs1 o s a b
  refine ⟨⟨a &&& b, fun k hk => ?_, completesWith_of_completeCc rfl⟩,
    ⟨a ||| b, fun k hk => ?_, completesWith_of_completeCc rfl⟩,
    ⟨a ^^^ b, fun k hk => ?_, completesWith_of_completeCc rfl⟩,
    ⟨a &&& ~~~b, fun k hk => ?_, completesWith_of_completeCc rfl⟩,
    ⟨a ||| ~~~b, fun k hk => ?_, completesWith_of_completeCc rfl⟩,
    ⟨~~~(a ^^^ b), fun k hk => getLsbD_xnor a b hk, completesWith_of_completeCc rfl⟩⟩
  all_goals simp [hk]

/-! ## Sums and differences as integers -/

/-- The carry in is 0 or 1. -/
@[simp] theorem toNat_carryWord (c : Bool) : (carryWord c).toNat = c.toNat := by
  cases c <;> rfl

@[simp] theorem carryWord_false : carryWord false = 0#32 := rfl

/-- A sum with its carry in, exact modulo 2^32 (R141, R143). -/
theorem toNat_add_carry (a b : Word) (c : Bool) :
    (a + b + carryWord c).toNat = (a.toNat + b.toNat + c.toNat) % 2 ^ 32 := by
  simp

/-- A difference with its borrow in, exact modulo 2^32 (R142, R144). -/
theorem toNat_sub_carry (a b : Word) (c : Bool) :
    ((a - b - carryWord c).toNat : Int) = ((a.toNat : Int) - b.toNat - c.toNat) % 2 ^ 32 := by
  have hc : c.toNat < 2 := c.toNat_lt
  simp only [BitVec.toNat_sub, toNat_carryWord]
  omega

/-- Settles O30: ADD and SUB are the sum and the difference without a carry. -/
theorem addSubResultsWrap : Obligations.AddSubResultsWrap := by
  unfold Obligations.AddSubResultsWrap
  intro rd rs1 o s a b c
  refine ⟨⟨_, ?_, completesWith_of_complete rfl⟩, ⟨_, ?_, completesWith_of_complete rfl⟩,
    ⟨_, ?_, completesWith_of_complete rfl⟩, ⟨_, ?_, completesWith_of_complete rfl⟩⟩
  · simp [a, b]
  · simpa [a, b] using toNat_sub_carry (s.readReg rs1) (s.operand2 o) false
  · rw [toNat_add_carry]; simp [a, b, c]
  · exact toNat_sub_carry _ _ _

/-! ## Exact flags -/

/-- The sign bit says that the signed value is negative (10_state.md R29). -/
theorem msb_iff (v : Word) : v.msb = true ↔ v.toInt < 0 := by
  rw [BitVec.msb_eq_toInt, decide_eq_true_eq]

/-- The zero test says that the value is 0. -/
theorem eq_zero_iff (v : Word) : decide (v = 0x00000000#32) = true ↔ v.toNat = 0 := by
  rw [decide_eq_true_eq, BitVec.toNat_eq]
  rfl

/-- A signed value is the unsigned one, less 2^32 when the sign bit is set. -/
theorem toInt_cases (v : Word) :
    (v.toNat < 2 ^ 31 ∧ v.toInt = v.toNat) ∨ (2 ^ 31 ≤ v.toNat ∧ v.toInt = (v.toNat : Int) - 2 ^ 32) := by
  have h := BitVec.toInt_eq_toNat_cond v
  have hv := v.isLt
  split at h <;> omega

/-- v and c of icc_add are exact, with any carry in (R140, R145, R147). -/
theorem iccAdd_exact (a b : Word) (c : Bool) :
    ((iccAdd a b (a + b + carryWord c)).v = true ↔
      a.toInt + b.toInt + c.toNat < -2 ^ 31 ∨ 2 ^ 31 ≤ a.toInt + b.toInt + c.toNat) ∧
    ((iccAdd a b (a + b + carryWord c)).c = true ↔ 2 ^ 32 ≤ a.toNat + b.toNat + c.toNat) := by
  have hsum := toNat_add_carry a b c
  have hc : c.toNat < 2 := c.toNat_lt
  generalize a + b + carryWord c = r at hsum ⊢
  simp only [iccAdd, BitVec.msb_eq_decide, Bool.or_eq_true, Bool.and_eq_true, Bool.not_eq_true',
    decide_eq_true_eq, decide_eq_false_iff_not]
  have ha := toInt_cases a
  have hb := toInt_cases b
  have := a.isLt
  have := b.isLt
  omega

/-- v and c of icc_sub are exact, with any borrow in (R140, R146, R148). -/
theorem iccSub_exact (a b : Word) (c : Bool) :
    ((iccSub a b (a - b - carryWord c)).v = true ↔
      a.toInt - b.toInt - c.toNat < -2 ^ 31 ∨ 2 ^ 31 ≤ a.toInt - b.toInt - c.toNat) ∧
    ((iccSub a b (a - b - carryWord c)).c = true ↔ a.toNat < b.toNat + c.toNat) := by
  have hdiff := toNat_sub_carry a b c
  have hc : c.toNat < 2 := c.toNat_lt
  generalize a - b - carryWord c = r at hdiff ⊢
  simp only [iccSub, BitVec.msb_eq_decide, Bool.or_eq_true, Bool.and_eq_true, Bool.not_eq_true',
    decide_eq_true_eq, decide_eq_false_iff_not]
  have ha := toInt_cases a
  have hb := toInt_cases b
  have := a.isLt
  have := b.isLt
  omega

/-- An ADDcc adds with carry in 0. -/
theorem exec_addcc_eq (rd rs1 : RegNum) (o : Operand2) (s : State) :
    exec (.addcc rd rs1 o) s =
      completeCc rd (s.readReg rs1 + s.operand2 o + carryWord false)
        (iccAdd (s.readReg rs1) (s.operand2 o) (s.readReg rs1 + s.operand2 o + carryWord false)) s := by
  rw [carryWord_false, BitVec.add_zero]
  rfl

/-- A SUBcc subtracts with borrow in 0. -/
theorem exec_subcc_eq (rd rs1 : RegNum) (o : Operand2) (s : State) :
    exec (.subcc rd rs1 o) s =
      completeCc rd (s.readReg rs1 - s.operand2 o - carryWord false)
        (iccSub (s.readReg rs1) (s.operand2 o) (s.readReg rs1 - s.operand2 o - carryWord false)) s := by
  rw [carryWord_false, BitVec.sub_zero]
  rfl

/-- Settles O31: both instructions complete with the flags of `iccAdd`, which are exact for any carry
in. -/
theorem addCcFlagsAreExact : Obligations.AddCcFlagsAreExact := by
  unfold Obligations.AddCcFlagsAreExact
  intro rd rs1 o s a b
  obtain ⟨hv0, hc0⟩ := iccAdd_exact a b false
  obtain ⟨hv, hc⟩ := iccAdd_exact a b s.icc.c
  exact ⟨⟨_, _, completesWith_of_completeCc (exec_addcc_eq rd rs1 o s), toNat_add_carry a b false,
      msb_iff _, eq_zero_iff _, by simpa using hv0, hc0⟩,
    ⟨_, _, completesWith_of_completeCc rfl, toNat_add_carry a b _, msb_iff _, eq_zero_iff _, hv, hc⟩⟩

/-- Settles O32: both instructions complete with the flags of `iccSub`, which are exact for any borrow
in. -/
theorem subCcFlagsAreExact : Obligations.SubCcFlagsAreExact := by
  unfold Obligations.SubCcFlagsAreExact
  intro rd rs1 o s a b
  obtain ⟨hv0, hc0⟩ := iccSub_exact a b false
  obtain ⟨hv, hc⟩ := iccSub_exact a b s.icc.c
  exact ⟨⟨_, _, completesWith_of_completeCc (exec_subcc_eq rd rs1 o s),
      by simpa using toNat_sub_carry a b false,
      msb_iff _, eq_zero_iff _, by simpa using hv0, by simpa using hc0⟩,
    ⟨_, _, completesWith_of_completeCc rfl, toNat_sub_carry a b _, msb_iff _, eq_zero_iff _, hv, hc⟩⟩

/-! ## Double words (R149) -/

/-- The value of two words side by side. -/
theorem toNat_append_words (hi lo : Word) : (hi ++ lo).toNat = hi.toNat * 2 ^ 32 + lo.toNat := by
  rw [BitVec.toNat_append, ← Nat.shiftLeft_add_eq_or_of_lt lo.isLt, Nat.shiftLeft_eq]

/-- The carry of a flag, as a number: 1 exactly when the condition it stands for holds. -/
theorem toNat_flag {f : Bool} {p : Prop} (h : f = true ↔ p) :
    (f.toNat = 1 ∧ p) ∨ (f.toNat = 0 ∧ ¬ p) := by
  cases f with
  | true => exact .inl ⟨rfl, h.1 rfl⟩
  | false => exact .inr ⟨rfl, fun hp => by simpa using h.2 hp⟩

/-- The sum of the low words carries into the sum of the high words. -/
theorem append_add_append (ah al bh bl : Word) :
    (ah + bh + carryWord (iccAdd al bl (al + bl)).c) ++ (al + bl) = (ah ++ al) + (bh ++ bl) := by
  have hc := (iccAdd_exact al bl false).2
  rw [carryWord_false, BitVec.add_zero, Bool.toNat_false] at hc
  have hcarry := toNat_flag hc
  apply BitVec.eq_of_toNat_eq
  rw [BitVec.toNat_add, toNat_append_words, toNat_append_words, toNat_append_words, toNat_add_carry,
    BitVec.toNat_add]
  omega

/-- The difference of the low words borrows from the difference of the high words. -/
theorem append_sub_append (ah al bh bl : Word) :
    (ah - bh - carryWord (iccSub al bl (al - bl)).c) ++ (al - bl) = (ah ++ al) - (bh ++ bl) := by
  have hc := (iccSub_exact al bl false).2
  rw [carryWord_false, BitVec.sub_zero, Bool.toNat_false] at hc
  have hborrow := toNat_flag hc
  have hhigh := toNat_sub_carry ah bh (iccSub al bl (al - bl)).c
  apply BitVec.eq_of_toNat_eq
  rw [BitVec.toNat_sub, toNat_append_words, toNat_append_words, toNat_append_words, BitVec.toNat_sub al]
  have := ah.isLt
  have := bh.isLt
  have := al.isLt
  have := bl.isLt
  omega

/-- Settles O33: the second sum reads the high words as they were and the first sum's carry. -/
theorem addccThenAddxAddsDoubleWords : Obligations.AddccThenAddxAddsDoubleWords := by
  unfold Obligations.AddccThenAddxAddsDoubleWords
  intro dl dh al bl ah bh s t u hdl hdh hlh hla hlb ht hu
  obtain rfl := completeCc_next ht
  obtain rfl := complete_next hu
  rw [← append_add_append]
  simp [readReg_writeReg_same, readReg_writeReg_other, hdl, hdh, hlh, hla.symm, hlb.symm]

/-- Settles O34: the second difference reads the high words as they were and the first one's borrow. -/
theorem subccThenSubxSubtractsDoubleWords : Obligations.SubccThenSubxSubtractsDoubleWords := by
  unfold Obligations.SubccThenSubxSubtractsDoubleWords
  intro dl dh al bl ah bh s t u hdl hdh hlh hla hlb ht hu
  obtain rfl := completeCc_next ht
  obtain rfl := complete_next hu
  rw [← append_sub_append]
  simp [readReg_writeReg_same, readReg_writeReg_other, hdl, hdh, hlh, hla.symm, hlb.symm]

end Sys2Proof.Machine
end

section
/-! PROOFS. Multiply and divide (42_mul_div.md R160 to R169) and the shifts (43_shift.md R180 to R183): the
value of each result as an exact integer. -/

namespace Sys2Proof.Machine

/-! ## Multiplies -/

/-- The low half's value is the remainder by 2^16 (R160). -/
theorem toNat_low16 (w : Word) : (low16 w).toNat = w.toNat % 2 ^ 16 := by
  simp [low16, BitVec.extractLsb'_toNat]

/-- The low half is the truncation to sixteen bits (R160). -/
theorem low16_eq (w : Word) : low16 w = w.setWidth 16 :=
  BitVec.eq_of_toNat_eq (by rw [toNat_low16, BitVec.toNat_setWidth])

/-- The unsigned product of two halves fits a word (R161). -/
theorem toNat_unsignedProduct (a b : Word) :
    (unsignedProduct a b).toNat = (a.toNat % 2 ^ 16) * (b.toNat % 2 ^ 16) := by
  rw [unsignedProduct, BitVec.toNat_ofNat, toNat_low16, toNat_low16]
  refine Nat.mod_eq_of_lt ?_
  have ha : a.toNat % 2 ^ 16 < 2 ^ 16 := Nat.mod_lt _ (by decide)
  have hb : b.toNat % 2 ^ 16 < 2 ^ 16 := Nat.mod_lt _ (by decide)
  calc a.toNat % 2 ^ 16 * (b.toNat % 2 ^ 16) < 2 ^ 16 * 2 ^ 16 := Nat.mul_lt_mul'' ha hb
    _ = 2 ^ 32 := by decide

/-- The signed product of two halves fits a word (R162). -/
theorem toInt_signedProduct (a b : Word) :
    (signedProduct a b).toInt = (a.setWidth 16).toInt * (b.setWidth 16).toInt := by
  rw [signedProduct, low16_eq, low16_eq]
  generalize a.setWidth 16 = x
  generalize b.setWidth 16 = y
  have hx : |x.toInt| ≤ 2 ^ 15 := abs_le.2 ⟨x.le_toInt, x.toInt_lt.le⟩
  have hy : |y.toInt| ≤ 2 ^ 15 := abs_le.2 ⟨y.le_toInt, y.toInt_lt.le⟩
  have hxy : |x.toInt * y.toInt| ≤ 2 ^ 15 * 2 ^ 15 := by
    rw [abs_mul]
    exact mul_le_mul hx hy (abs_nonneg _) (by decide)
  obtain ⟨hlow, hhigh⟩ := abs_le.1 hxy
  exact BitVec.toInt_ofInt_eq_self (by decide) (by omega) (by omega)

/-- Settles O35: both forms complete with the product, whose value fits. -/
theorem multipliesAreExactOnLowHalves : Obligations.MultipliesAreExactOnLowHalves := by
  unfold Obligations.MultipliesAreExactOnLowHalves
  intro rd rs1 o s a b
  exact ⟨⟨_, toNat_unsignedProduct a b, completesWith_of_complete rfl, completesWith_of_completeCc rfl⟩,
    ⟨_, toInt_signedProduct a b, completesWith_of_complete rfl, completesWith_of_completeCc rfl⟩⟩

/-! ## Divides -/

/-- The floor of the quotient fits a word (R166). -/
theorem toNat_unsignedQuotient (a b : Word) : (unsignedQuotient a b).toNat = a.toNat / b.toNat := by
  rw [unsignedQuotient, BitVec.toNat_ofNat]
  exact Nat.mod_eq_of_lt ((Nat.div_le_self _ _).trans_lt a.isLt)

/-- Settles O36: behind the zero test both forms complete with the quotient. -/
theorem unsignedDivideGivesTheFloor : Obligations.UnsignedDivideGivesTheFloor := by
  unfold Obligations.UnsignedDivideGivesTheFloor
  intro rd rs1 o s hz
  refine ⟨_, toNat_unsignedQuotient _ _, completesWith_of_complete ?_, completesWith_of_completeCc ?_⟩
  · rw [exec_udiv_eq, if_neg hz]
  · rw [exec_udivcc_eq, if_neg hz]
    rfl

/-- The quotient of the magnitudes under the product of the signs is the quotient rounded toward zero
(R167). -/
theorem sign_mul_natAbs_div (a b : Int) :
    a.sign * b.sign * ((a.natAbs / b.natAbs : Nat) : Int) = a.tdiv b := by
  rw [← Int.sign_mul_natAbs (a.tdiv b), Int.sign_tdiv, Int.natAbs_tdiv]
  split
  case isTrue h => simp [Nat.div_eq_of_lt h]
  case isFalse => rfl

/-- The signed quotient is the library's, which rounds toward zero (R167). -/
theorem signedQuotient_eq_sdiv {a b : Word} (h : a ≠ BitVec.intMin 32 ∨ b ≠ -1#32) :
    signedQuotient a b = a.sdiv b := by
  rw [signedQuotient, sign_mul_natAbs_div, ← BitVec.toInt_sdiv_of_ne_or_ne a b h, BitVec.ofInt_toInt]

/-- Outside the overflow case the signed quotient has the exact value (R167). -/
theorem toInt_signedQuotient {a b : Word} (h : ¬ (a.toInt = -2 ^ 31 ∧ b.toInt = -1)) :
    (signedQuotient a b).toInt = a.toInt.tdiv b.toInt := by
  have hne : a ≠ BitVec.intMin 32 ∨ b ≠ -1#32 := by
    by_contra hcon
    push Not at hcon
    obtain ⟨rfl, rfl⟩ := hcon
    exact h (by decide)
  rw [signedQuotient_eq_sdiv hne, BitVec.toInt_sdiv_of_ne_or_ne a b hne]

/-- The overflow test names -2^31 by -1 (R167). -/
theorem signedQuotientOverflows_eq_false {a b : Word} (h : ¬ (a.toInt = -2 ^ 31 ∧ b.toInt = -1)) :
    ¬ signedQuotientOverflows a b = true := by
  intro hovf
  simp only [signedQuotientOverflows, Bool.and_eq_true, decide_eq_true_eq] at hovf
  obtain ⟨rfl, rfl⟩ := hovf
  exact h (by decide)

/-- Settles O37: behind the zero test and the overflow test both forms complete with the quotient. -/
theorem signedDivideRoundsTowardZero : Obligations.SignedDivideRoundsTowardZero := by
  unfold Obligations.SignedDivideRoundsTowardZero
  intro rd rs1 o s hz hovf
  have hno := signedQuotientOverflows_eq_false hovf
  refine ⟨_, toInt_signedQuotient hovf, completesWith_of_complete ?_, completesWith_of_completeCc ?_⟩
  · rw [exec_sdiv_eq, if_neg hz, if_neg hno]
  · rw [exec_sdivcc_eq, if_neg hz, if_neg hno]
    rfl

/-- Settles O38: the overflow case completes after one draw, which no register, byte or parameter
shows. -/
theorem signedDivideOverflowCompletes : Obligations.SignedDivideOverflowCompletes := by
  unfold Obligations.SignedDivideOverflowCompletes
  intro rd rs1 o s ha hb
  have hz : s.operand2 o ≠ 0x00000000#32 := by rw [hb]; decide
  have hovf : signedQuotientOverflows (s.readReg rs1) (s.operand2 o) = true := by rw [ha, hb]; decide
  refine ⟨⟨(s.countDraw.writeReg rd s.drawnWord).advance, s.drawnWord, ?_, fun r => ?_, ?_⟩,
    ⟨((s.countDraw.writeReg rd s.drawnWord).setIcc s.drawnIcc).advance, s.drawnWord, ?_, fun r => ?_, ?_⟩⟩
  · rw [exec_sdiv_eq, if_neg hz, if_pos hovf]
    rfl
  · simpa using readReg_writeReg s.countDraw rd r s.drawnWord
  · simp [SameMemories]
  · rw [exec_sdivcc_eq, if_neg hz, if_pos hovf]
    rfl
  · simpa using readReg_writeReg s.countDraw rd r s.drawnWord
  · simp [SameMemories]

/-- Settles O39: the zero test comes first in the four divides. -/
theorem divideByZeroFaults : Obligations.DivideByZeroFaults := by
  unfold Obligations.DivideByZeroFaults
  intro rd rs1 o s hz i hi
  rw [exec_divide_zero hz hi]
  exact raises_raise _ s

/-! ## Shifts -/

/-- The count is operand 2 modulo 32 (R180). -/
theorem shiftCount_eq (w : Word) : shiftCount w = w.toNat % 32 := by
  simp [shiftCount, BitVec.extractLsb'_toNat]

/-- Bit k of a left shift (R181). -/
theorem getLsbD_sll (a : Word) (n : Nat) {k : Nat} (hk : k < 32) :
    (a <<< n).getLsbD k = (decide (n ≤ k) && a.getLsbD (k - n)) := by
  rw [BitVec.getLsbD_shiftLeft]
  by_cases h : k < n
  · simp [h, Nat.not_le.2 h]
  · simp [hk, h, Nat.not_lt.1 h]

/-- Bit k of a right shift with zeros (R182). -/
theorem getLsbD_srl (a : Word) (n k : Nat) :
    (a >>> n).getLsbD k = (decide (k + n < 32) && a.getLsbD (k + n)) := by
  rw [BitVec.getLsbD_ushiftRight, Nat.add_comm n k]
  by_cases h : k + n < 32
  · simp [h]
  · simp [h, BitVec.getLsbD_of_ge a (k + n) (by omega)]

/-- Bit k of a right shift with the sign (R183). -/
theorem getLsbD_sra (a : Word) (n : Nat) {k : Nat} (hk : k < 32) :
    (a.sshiftRight n).getLsbD k = if k + n < 32 then a.getLsbD (k + n) else a.getLsbD 31 := by
  rw [BitVec.getLsbD_sshiftRight, Nat.add_comm n k]
  simp [hk, BitVec.msb_eq_getLsbD_last]

/-- Settles O40: each shift completes with the shift by the count, whose bits and value are known. -/
theorem shiftResultsBitByBit : Obligations.ShiftResultsBitByBit := by
  unfold Obligations.ShiftResultsBitByBit
  intro rd rs1 o s a n
  have hn : shiftCount (s.operand2 o) = n := shiftCount_eq _
  refine ⟨⟨a <<< n, fun k hk => getLsbD_sll a n hk, completesWith_of_complete ?_⟩,
    ⟨a >>> n, fun k _ => getLsbD_srl a n k, ?_, completesWith_of_complete ?_⟩,
    ⟨a.sshiftRight n, fun k hk => getLsbD_sra a n hk, ?_, completesWith_of_complete ?_⟩⟩
  · rw [← hn]; rfl
  · rw [BitVec.toNat_ushiftRight, Nat.shiftRight_eq_div_pow]
  · rw [← hn]; rfl
  · rw [BitVec.toInt_sshiftRight, Int.shiftRight_eq_div_pow]
    push_cast; rfl
  · rw [← hn]; rfl

end Sys2Proof.Machine
end

section
/-! PROOFS. LD after ST, two stores, and the fetch after a store (44_load_store.md R190 to R193;
20_memory.md R54, R62). -/

namespace Sys2Proof.Machine

/-! ## LD and ST behind their checks -/

/-- LD at an aligned address in MEM_REGIONS completes with the word there. -/
theorem exec_ld_inside {rd rs1 : RegNum} {o : Operand2} {s : State}
    (ha : isAligned (s.address rs1 o) = true) (hr : s.inRegions (s.address rs1 o) = true) :
    exec (.ld rd rs1 o) s = complete rd (s.loadWord (s.address rs1 o)) s := by
  simp [exec_ld_eq, ha, hr]

/-- Settles O41: LD completes with `loadWord`, the four bytes put together. -/
theorem loadReadsTheWord : Obligations.LoadReadsTheWord := by
  unfold Obligations.LoadReadsTheWord
  rintro rd rs1 o s a rfl halign hr
  exact completesWith_of_complete (exec_ld_inside ((isAligned_iff _).2 halign) hr)

/-- Settles O44: the second check fails in both instructions. -/
theorem dataAccessOutsideRegionsFaults : Obligations.DataAccessOutsideRegionsFaults := by
  unfold Obligations.DataAccessOutsideRegionsFaults
  intro rd rs1 o s halign hr i hi
  rw [exec_memAccess_outside (rs1 := rs1) (o := o) ((isAligned_iff _).2 halign) hr hi]
  exact raises_raise _ s

/-- An ST that leaves no fault passed both checks, and stored. -/
theorem st_completed {rd rs1 : RegNum} {o : Operand2} {s t : State} (h : exec (.st rd rs1 o) s = .next t)
    (hf : t.faulted = none) :
    isAligned (s.address rs1 o) = true ∧ s.inRegions (s.address rs1 o) = true ∧
      t = (s.storeWord (s.address rs1 o) (s.readReg rd)).advance := by
  rw [exec_st_eq] at h
  split_ifs at h with ha hr
  · exact ⟨ha, hr, (Host.Outcome.next.inj h).symm⟩
  · simp [raise_next h] at hf
  · simp [raise_next h] at hf

/-- Settles O45: the ST's checks are the LD's, and the word read is the one stored. -/
theorem loadAfterStoreGivesTheValue : Obligations.LoadAfterStoreGivesTheValue := by
  unfold Obligations.LoadAfterStoreGivesTheValue
  intro rd rs1 rk rj o p s t _ h hf haddr
  obtain ⟨ha, hr, rfl⟩ := st_completed h hf
  have hload : (s.storeWord (s.address rs1 o) (s.readReg rd)).advance.loadWord (s.address rs1 o) =
      s.readReg rd := loadWord_storeWord_same s _ _
  refine completesWith_of_complete ((exec_ld_inside (by rwa [haddr]) (by rwa [haddr])).trans ?_)
  rw [haddr, hload]

/-! ## Two stores -/

/-- A store moves no effective address. -/
theorem address_store (s : State) (a v : Word) (rs1 : RegNum) (o : Operand2) :
    (s.storeWord a v).advance.address rs1 o = s.address rs1 o := rfl

/-- Two aligned words at different addresses share no byte. -/
theorem aligned_disjoint {a b : Word} (ha : isAligned a = true) (hb : isAligned b = true) (h : a ≠ b)
    (k : Nat) : ¬ ((a.toNat ≤ k ∧ k ≤ a.toNat + 3) ∧ b.toNat ≤ k ∧ k ≤ b.toNat + 3) := by
  rw [isAligned_iff] at ha hb
  have hne : a.toNat ≠ b.toNat := fun e => h (BitVec.eq_of_toNat_eq e)
  omega

/-- Bytes read the same after two stores to different words in either order. -/
theorem dataByte_stores_commute (s : State) {a b : Word} (v w : Word) (ha : isAligned a = true)
    (hb : isAligned b = true) (h : a ≠ b) (k : Nat) :
    ((s.storeWord a v).storeWord b w).dataByte k = ((s.storeWord b w).storeWord a v).dataByte k := by
  have hdisjoint := aligned_disjoint ha hb h k
  simp only [dataByte_storeWord]
  by_cases hka : a.toNat ≤ k ∧ k ≤ a.toNat + 3
  · have hkb : ¬ (b.toNat ≤ k ∧ k ≤ b.toNat + 3) := fun hkb => hdisjoint ⟨hka, hkb⟩
    simp only [if_pos hka, if_neg hkb]
  · simp only [if_neg hka]

/-- Of two stores to one word the later stands. -/
theorem dataByte_store_again (s : State) (a v w : Word) (k : Nat) :
    ((s.storeWord a v).storeWord a w).dataByte k = (s.storeWord a w).dataByte k := by
  simp only [dataByte_storeWord]
  split <;> rfl

/-- Settles O46: in each order both stores pass their checks, at the addresses of the first state. -/
theorem storesToDifferentWordsCommute : Obligations.StoresToDifferentWordsCommute := by
  unfold Obligations.StoresToDifferentWordsCommute
  intro r1 b1 r2 b2 o1 o2 s ha1 ha2 hr1 hr2
  refine ⟨_, _, _, _, exec_st_inside ha1 hr1, exec_st_inside (by rwa [address_store]) hr2,
    exec_st_inside ha2 hr2, exec_st_inside (by rwa [address_store]) hr1,
    fun hne k => ?differ, fun heq k => ?same⟩
  case differ => exact dataByte_stores_commute s _ _ ha1 ha2 hne k
  case same =>
    change ((s.storeWord (s.address b1 o1) (s.readReg r1)).storeWord
        (s.address b2 o2) (s.readReg r2)).dataByte k =
      (s.storeWord (s.address b2 o2) (s.readReg r2)).dataByte k
    rw [heq]
    exact dataByte_store_again s _ _ _ k

/-! ## The fetch (20_memory.md R62, R64) -/

/-- Under unified the fetch reads what LD reads. -/
theorem fetchWord_unified {s : State} (h : s.params.memOrg = .unified) (a : Word) :
    (s.setPc a).fetchWord = s.loadWord a := by
  have hbyte : (s.setPc a).fetchByte = s.dataByte := by
    funext k
    simp [State.fetchByte, h]
  rw [State.fetchWord, State.loadWord, hbyte, setPc_pc]

/-- Under split the fetch reads the program memory. -/
theorem fetchWord_split {s : State} (h : s.params.memOrg = .split) (a : Word) :
    (s.setPc a).fetchWord = wordAt s.progByte a.toNat := by
  have hbyte : (s.setPc a).fetchByte = s.progByte := by
    funext k
    simp [State.fetchByte, h]
  rw [State.fetchWord, hbyte, setPc_pc]

/-- Settles O47: under unified the fetch is a load; under split it reads what no store changes. -/
theorem fetchSeesAStoreWhenUnified : Obligations.FetchSeesAStoreWhenUnified := by
  unfold Obligations.FetchSeesAStoreWhenUnified
  intro rd rs1 o s t _ h hf
  obtain ⟨-, -, rfl⟩ := st_completed h hf
  refine ⟨fun horg => ?_, fun horg a => ?_⟩
  · rw [fetchWord_unified (by simpa using horg)]
    exact loadWord_storeWord_same s _ _
  · rw [fetchWord_split (by simpa using horg), fetchWord_split horg]
    rfl

end Sys2Proof.Machine
end

section
/-! PROOFS. The branches (45_branch.md R200 to R218): the test each makes of icc, where it leads, and what
the tests say of two words that CMP compared. -/

namespace Sys2Proof.Machine

/-! ## Where a branch leads -/

/-- An execution that moves pc alone jumps. -/
theorem jumpsTo_of_setPc {i : Instr} {s : State} {a : Word} (h : exec i s = .next (s.setPc a)) :
    JumpsTo i s a :=
  ⟨s.setPc a, h, by simp, by simp [SameRegs], by simp, by simp [SameMemories], by simp [SameRest]⟩

/-- A branch jumps to its target or to the next word, as its test decides (R200). -/
theorem jumpsTo_of_branchIf {i : Instr} {s : State} {taken taken' : Bool} {d : BitVec 22}
    (h : exec i s = branchIf taken d s) (htest : taken = taken') :
    JumpsTo i s (if taken' then s.pc + 4#32 * d.signExtend 32 else s.pc + 4#32) := by
  subst htest
  exact jumpsTo_of_setPc (h.trans (branchIf_eq taken d s))

/-- BLE's test spelled with an inequality of flags (R204). -/
theorem condBle_eq (f : Icc) : condBle f = (f.z || (f.n != f.v)) := rfl

/-- BG's test without the outer negation (R212). -/
theorem condBg_eq (f : Icc) : condBg f = (!f.z && (f.n == f.v)) := by
  obtain ⟨n, z, v, c⟩ := f
  cases n <;> cases z <;> cases v <;> rfl

/-- BGE's test without the outer negation (R213). -/
theorem condBge_eq (f : Icc) : condBge f = (f.n == f.v) := by
  obtain ⟨n, z, v, c⟩ := f
  cases n <;> cases v <;> rfl

/-- BGU's test without the outer negation (R214). -/
theorem condBgu_eq (f : Icc) : condBgu f = (!f.c && !f.z) := Bool.not_or _ _

/-- Settles O48: each branch is `branchIf` of its own test. -/
theorem branchesFollowTheirConditions : Obligations.BranchesFollowTheirConditions := by
  unfold Obligations.BranchesFollowTheirConditions
  intro d s go n z v c
  exact ⟨jumpsTo_of_branchIf (taken := condBn s.icc) rfl rfl, jumpsTo_of_branchIf rfl rfl,
    jumpsTo_of_branchIf rfl (condBle_eq _), jumpsTo_of_branchIf rfl rfl,
    jumpsTo_of_branchIf rfl rfl, jumpsTo_of_branchIf rfl rfl,
    jumpsTo_of_branchIf rfl rfl, jumpsTo_of_branchIf rfl rfl,
    jumpsTo_of_branchIf (taken := condBa s.icc) rfl rfl, jumpsTo_of_branchIf rfl rfl,
    jumpsTo_of_branchIf rfl (condBg_eq _), jumpsTo_of_branchIf rfl (condBge_eq _),
    jumpsTo_of_branchIf rfl (condBgu_eq _), jumpsTo_of_branchIf rfl rfl,
    jumpsTo_of_branchIf rfl rfl, jumpsTo_of_branchIf rfl rfl⟩

/-! ## The cond field (R201) -/

/-- The test that the low three bits of cond select (45_branch.md R200's list). -/
def baseTest (f : Icc) (k : Nat) : Bool :=
  [false, f.z, f.z || (f.n ^^ f.v), f.n ^^ f.v, f.c || f.z, f.c, f.n, f.v].getD k false

/-- The branch of a cond makes the test of its low bits, inverted by bit 3. -/
theorem exec_branchOfCond (cond : BitVec 4) (d : BitVec 22) (s : State) :
    exec (branchOfCond cond d) s =
      branchIf (bif cond.getLsbD 3 then !baseTest s.icc (cond.toNat % 8)
        else baseTest s.icc (cond.toNat % 8)) d s := by
  obtain ⟨k⟩ := cond
  fin_cases k <;> rfl

/-- Settles O49: the branch of a cond is `branchIf` of the inverted base test. -/
theorem condBitThreeNegatesTheTest : Obligations.CondBitThreeNegatesTheTest := by
  unfold Obligations.CondBitThreeNegatesTheTest
  intro cond d s f base
  have hbase : (base ^^ cond.getLsbD 3) =
      bif cond.getLsbD 3 then !baseTest f (cond.toNat % 8) else baseTest f (cond.toNat % 8) := by
    cases cond.getLsbD 3
    · exact Bool.xor_false _
    · exact Bool.xor_true _
  rw [hbase, exec_branchOfCond]
  exact branchIf_eq _ d s

/-! ## After CMP (10_state.md R30; R218) -/

section
variable (a b : Word)

/-- The flags CMP leaves: those of the difference, with no borrow in. -/
theorem iccSub_compare :
    ((iccSub a b (a - b)).v = true ↔ a.toInt - b.toInt < -2 ^ 31 ∨ 2 ^ 31 ≤ a.toInt - b.toInt) ∧
    ((iccSub a b (a - b)).c = true ↔ a.toNat < b.toNat) := by
  simpa using iccSub_exact a b false

/-- z after CMP says that the words are equal. -/
theorem condBe_compare : condBe (iccSub a b (a - b)) = decide (a = b) := by
  change decide (a - b = 0#32) = decide (a = b)
  rw [decide_eq_decide]
  exact sub_eq_zero

/-- n XOR v after CMP says signed less, also when the difference overflows. -/
theorem condBl_compare : condBl (iccSub a b (a - b)) = decide (a.toInt < b.toInt) := by
  have hv := (iccSub_compare a b).1
  have hn : (iccSub a b (a - b)).n = true ↔ (a - b).toInt < 0 := msb_iff _
  have hdiff : ((a - b).toNat : Int) = ((a.toNat : Int) - b.toNat) % 2 ^ 32 := by
    simpa using toNat_sub_carry a b false
  have ha := toInt_cases a
  have hb := toInt_cases b
  have hd := toInt_cases (a - b)
  have := a.isLt
  have := b.isLt
  rw [condBl, Bool.eq_iff_iff, Bool.xor_iff_ne, ne_eq, Bool.eq_iff_iff, hn, hv, decide_eq_true_eq]
  omega

/-- c after CMP says unsigned less. -/
theorem condBcs_compare : condBcs (iccSub a b (a - b)) = decide (a.toNat < b.toNat) := by
  rw [Bool.eq_iff_iff, decide_eq_true_eq]
  exact (iccSub_compare a b).2

/-- z OR (n XOR v) after CMP says signed less or equal. -/
theorem condBle_compare : condBle (iccSub a b (a - b)) = decide (a.toInt ≤ b.toInt) := by
  have h : condBle (iccSub a b (a - b)) = (condBe (iccSub a b (a - b)) || condBl (iccSub a b (a - b))) := rfl
  rw [h, condBe_compare, condBl_compare, ← Bool.decide_or, decide_eq_decide, ← BitVec.toInt_inj]
  omega

/-- c OR z after CMP says unsigned less or equal. -/
theorem condBleu_compare : condBleu (iccSub a b (a - b)) = decide (a.toNat ≤ b.toNat) := by
  have h : condBleu (iccSub a b (a - b)) = (condBcs (iccSub a b (a - b)) || condBe (iccSub a b (a - b))) := rfl
  rw [h, condBe_compare, condBcs_compare, ← Bool.decide_or, decide_eq_decide, ← BitVec.toNat_inj]
  omega

/-- The five tests with bit 3 of cond set are the negations. -/
theorem negated_tests (f : Icc) :
    condBne f = !condBe f ∧ condBg f = !condBle f ∧ condBge f = !condBl f ∧ condBgu f = !condBleu f ∧
      condBcc f = !condBcs f := ⟨rfl, rfl, rfl, rfl, rfl⟩

end

/-- The state after CMP: only icc and pc have changed. -/
theorem exec_compare (rs1 : RegNum) (o : Operand2) (s : State) :
    exec (.subcc 0#5 rs1 o) s = .next (s.setIcc
      (iccSub (s.readReg rs1) (s.operand2 o) (s.readReg rs1 - s.operand2 o))).advance := rfl

/-- Settles O50: the tests are made of CMP's flags, which compare the words. -/
theorem branchesAfterCompareCompare : Obligations.BranchesAfterCompareCompare := by
  unfold Obligations.BranchesAfterCompareCompare
  intro rs1 o s a b
  refine ⟨_, exec_compare rs1 o s, by simp [SameRegs], by simp [SameMemories], by simp, fun d => ?_⟩
  intro goIf
  obtain ⟨hbne, hbg, hbge, hbgu, hbcc⟩ := negated_tests (iccSub a b (a - b))
  refine ⟨jumpsTo_of_branchIf rfl (condBe_compare a b), jumpsTo_of_branchIf rfl (hbne.trans ?_),
    jumpsTo_of_branchIf rfl (condBl_compare a b), jumpsTo_of_branchIf rfl (condBle_compare a b),
    jumpsTo_of_branchIf rfl (hbg.trans ?_), jumpsTo_of_branchIf rfl (hbge.trans ?_),
    jumpsTo_of_branchIf rfl (condBcs_compare a b), jumpsTo_of_branchIf rfl (condBleu_compare a b),
    jumpsTo_of_branchIf rfl (hbgu.trans ?_), jumpsTo_of_branchIf rfl (hbcc.trans ?_)⟩
  · rw [condBe_compare, ← decide_not]
  · rw [condBle_compare, ← decide_not, decide_eq_decide, not_le, gt_iff_lt]
  · rw [condBl_compare, ← decide_not, decide_eq_decide, not_lt, ge_iff_le]
  · rw [condBleu_compare, ← decide_not, decide_eq_decide, not_le, gt_iff_lt]
  · rw [condBcs_compare, ← decide_not, decide_eq_decide, not_lt, ge_iff_le]

/-! ## Targets (30_encoding.md R89) -/

/-- An unsigned value is the signed one modulo 2^32. -/
theorem toNat_eq_toInt_emod (v : Word) : (v.toNat : Int) = v.toInt % 2 ^ 32 := by
  have hv := toInt_cases v
  have := v.isLt
  omega

/-- The target in exact integers, the displacement signed (R89). -/
theorem toNat_branchTarget (pc : Word) (d : BitVec 22) :
    ((branchTarget pc d).toNat : Int) = (pc.toNat + 4 * d.toInt) % 2 ^ 32 := by
  have hd : ((d.signExtend 32).toNat : Int) = d.toInt % 2 ^ 32 := by
    rw [toNat_eq_toInt_emod, BitVec.toInt_signExtend_of_le (by decide)]
  simp only [branchTarget, BitVec.toNat_add, BitVec.toNat_mul, BitVec.toNat_ofNat]
  omega

/-- The assembler's displacement, four times over, is the signed distance, when that is a multiple of 4
in reach (R200). -/
theorem toInt_branchDisp {pc target : Word} (h4 : (target - pc).toInt % 4 = 0)
    (hlow : -8388608 ≤ (target - pc).toInt) (hhigh : (target - pc).toInt ≤ 8388604) :
    4 * (branchDisp pc target).toInt = (target - pc).toInt := by
  unfold branchDisp
  generalize target - pc = distance at *
  have hd := toInt_cases distance
  have hdisp : ((distance >>> 2).setWidth 22).toNat = distance.toNat / 4 % 2 ^ 22 := by
    rw [BitVec.toNat_setWidth, BitVec.toNat_ushiftRight, Nat.shiftRight_eq_div_pow]
  rw [BitVec.toInt_eq_toNat_cond, hdisp]
  have := distance.isLt
  split <;> omega

/-- Settles O51: both parts in exact integers. -/
theorem branchTargetsAreRelativeToTheBranch : Obligations.BranchTargetsAreRelativeToTheBranch := by
  unfold Obligations.BranchTargetsAreRelativeToTheBranch
  refine ⟨toNat_branchTarget, fun pc target h4 hlow hhigh => BitVec.eq_of_toNat_eq ?_⟩
  have htarget := toNat_branchTarget pc (branchDisp pc target)
  have hdistance := toNat_eq_toInt_emod (target - pc)
  rw [toInt_branchDisp h4 hlow hhigh] at htarget
  rw [BitVec.toNat_sub] at hdistance
  have := pc.isLt
  have := target.isLt
  omega

/-- A BA with displacement 0 gives its own state again. -/
theorem exec_ba_zero (s : State) : exec (.ba 0#22) s = .next s := by
  have htarget : branchTarget s.pc 0#22 = s.pc := by
    simp [branchTarget]
  change Host.Outcome.next (s.setPc (branchTarget s.pc 0#22)) = _
  rw [htarget]
  rfl

/-- Settles O52: the word is BA's with displacement 0, so the step is its execution. -/
theorem branchAlwaysZeroLoopsForEver : Obligations.BranchAlwaysZeroLoopsForEver := by
  unfold Obligations.BranchAlwaysZeroLoopsForEver
  intro s hn ha hr hw
  have hdecode : decode s.fetchWord = .instr (.ba 0#22) := by rw [hw]; decide
  have hstep : step s = .next s := by
    rw [step_eq_exec_of_fetchInstr hn (fetchInstr_inside ha hr hdecode), exec_ba_zero]
  exact ⟨hstep, by simp [selfLoops, hstep]⟩

end Sys2Proof.Machine
end

section
/-! PROOFS. JMPL and RETL to an aligned target and the way back from a CALL (46_call_jump.md R230 to
R234), a constant in two instructions (47_sethi.md R241), the synonyms (48_synonyms.md), and words and
steps of single instructions. -/

namespace Sys2Proof.Machine

/-! ## Jumps -/

/-- RETL to an aligned target moves pc alone (R232). -/
theorem jumpsTo_retl {s : State} {a : Word} (hlink : s.readReg 15#5 + 8#32 = a) (ha : isAligned a = true) :
    JumpsTo .retl s a := by
  subst hlink
  exact jumpsTo_of_setPc (by rw [exec_retl_eq, if_pos ha])

/-- Settles O54: both instructions pass their one check; JMPL's link is pc before the jump. -/
theorem jmplAndRetlJump : Obligations.JmplAndRetlJump := by
  unfold Obligations.JmplAndRetlJump
  refine ⟨fun rd rs1 o s h => ?_, fun s h => jumpsTo_retl rfl ((isAligned_iff _).2 h)⟩
  rw [exec_jmpl_eq, if_pos ((isAligned_iff _).2 h)]
  refine ⟨_, rfl, by simp, fun r => ?_, by simp, by simp [SameMemories], by simp [SameRest]⟩
  simpa using readReg_writeReg s rd r s.pc

/-- Settles O56: the CALL leaves its address in x[15], and 8 more is a multiple of 4 as it is. -/
theorem retlReturnsBehindTheCall : Obligations.RetlReturnsBehindTheCall := by
  unfold Obligations.RetlReturnsBehindTheCall
  intro d s t u hpc h hkept
  rw [exec_call_eq] at h
  obtain rfl := Host.Outcome.next.inj h
  have hlink : u.readReg 15#5 = s.pc := by
    rw [hkept, readReg_setPc, readReg_writeReg_same s (by decide)]
  exact jumpsTo_retl (by rw [hlink]) (isAligned_add4mul 2#32 hpc)

/-! ## SETHI then OR -/

/-- A ten-bit constant in the 13-bit field is not negative. -/
theorem signExtend_low (k : BitVec 10) : (k.setWidth 13).signExtend 32 = k.setWidth 32 := by
  have hmsb : (k.setWidth 13).msb = false := by simp [BitVec.msb_eq_getLsbD_last]
  rw [BitVec.signExtend_eq_setWidth_of_msb_false hmsb, BitVec.setWidth_setWidth (by decide)]

/-- The high 22 bits above zeros, with the low ten bits put in, are the word (R241). -/
theorem sethi_or_low (k : Word) :
    (k.extractLsb' 10 22 ++ 0#10) ||| ((k.extractLsb' 0 10).setWidth 13).signExtend 32 = k := by
  rw [signExtend_low]
  apply BitVec.eq_of_getLsbD_eq; intro i hi
  interval_cases i <;> (simp only [BitVec.getLsbD_or, BitVec.getLsbD_append]; simp)

/-- Settles O58: the OR reads what the SETHI loaded. -/
theorem sethiThenOrLoadsAnyConstant : Obligations.SethiThenOrLoadsAnyConstant := by
  unfold Obligations.SethiThenOrLoadsAnyConstant
  intro rd k s t u hrd ht hu
  obtain rfl := complete_next ht
  obtain rfl := complete_next hu
  simpa [readReg_writeReg_same _ hrd] using sethi_or_low k

/-! ## Synonyms -/

/-- An instruction that completes with v completes with any other name of v. -/
theorem completesWith_of_complete_eq {i : Instr} {s : State} {rd : RegNum} {v v' : Word}
    (h : exec i s = complete rd v s) (hv : v = v') : CompletesWith i s rd v' s.icc := by
  subst hv
  exact completesWith_of_complete h

/-- Writing flags with rd = 0 writes no register, whatever the result (R21). -/
theorem completeCc_zero (v v' : Word) (f : Icc) (s : State) : completeCc 0#5 v f s = completeCc 0#5 v' f s :=
  rfl

/-- TST completes with the flags of its operand and no result (R249). -/
theorem completesWith_tst (r : RegNum) (s : State) :
    CompletesWith (Synonym.expand (.tst r)) s 0#5 0x00000000#32
      ⟨(s.readReg r).getLsbD 31, s.readReg r = 0x00000000#32, false, false⟩ := by
  have hor : s.readReg 0#5 ||| s.operand2 (.reg r) = s.readReg r := by simp
  refine completesWith_of_completeCc ?_
  change completeCc 0#5 (s.readReg 0#5 ||| s.operand2 (.reg r))
    (iccLogic (s.readReg 0#5 ||| s.operand2 (.reg r))) s = _
  rw [hor]
  exact completeCc_zero _ _ _ s

/-- Settles O59: the operands of each expansion are a register, x[0] or the constant 1; CMP's z and c
compare the words. -/
theorem synonymsDoWhatTheirCommentsSay : Obligations.SynonymsDoWhatTheirCommentsSay := by
  unfold Obligations.SynonymsDoWhatTheirCommentsSay
  intro rd r o s
  refine ⟨jumpsTo_of_setPc rfl, completesWith_of_complete_eq rfl ?mov, completesWith_of_complete_eq rfl ?not,
    completesWith_of_complete_eq rfl ?neg, completesWith_of_complete_eq rfl ?inc,
    completesWith_of_complete_eq rfl ?dec, completesWith_of_complete_eq rfl ?clr, completesWith_tst r s,
    _, exec_compare r o s, by simp [SameRegs], by simp [SameMemories], by simp [SameRest], by simp, ?_, ?_⟩
  case mov | not | neg | clr => simp
  case inc | dec => rfl
  · have hz := condBe_compare (s.readReg r) (s.operand2 o)
    rw [condBe] at hz
    simp [hz]
  · simpa using (iccSub_compare (s.readReg r) (s.operand2 o)).2

/-- A branch word is its cond, op2 and displacement side by side (R84). -/
theorem branchWord_eq_or (c : BitVec 4) (d : BitVec 22) :
    branchWord c d = (c.setWidth 32 <<< 25) ||| 0x00800000#32 ||| d.setWidth 32 := by
  apply BitVec.eq_of_getLsbD_eq; intro i hi
  interval_cases i <;> (simp only [branchWord, BitVec.getLsbD_or, BitVec.getLsbD_append]; simp)

/-- Settles O60: the fixed words by evaluation, the branch words by their cond. -/
theorem synonymWords : Obligations.SynonymWords := by
  unfold Obligations.SynonymWords
  refine ⟨by decide, by decide, by decide, by decide, by decide, by decide, by decide, by decide, by decide,
    fun d => ⟨branchWord_eq_or 6#4 d, branchWord_eq_or 14#4 d, branchWord_eq_or 1#4 d,
      branchWord_eq_or 9#4 d, branchWord_eq_or 5#4 d, branchWord_eq_or 13#4 d, branchWord_eq_or 7#4 d,
      branchWord_eq_or 15#4 d⟩⟩

/-! ## Words and steps -/

/-- Settles O1: the eleven words by evaluation. -/
theorem decodesWordsOfTheSpec : Obligations.DecodesWordsOfTheSpec := by
  unfold Obligations.DecodesWordsOfTheSpec
  decide

/-- Settles O10: the fetch's checks pass, and the step is the decoded instruction's execution. -/
theorem stepRunsTheDecodedInstruction : Obligations.StepRunsTheDecodedInstruction := by
  unfold Obligations.StepRunsTheDecodedInstruction
  exact fun s i hf ha hr hi => step_eq_exec_of_fetchInstr hf (fetchInstr_inside ha hr hi)

end Sys2Proof.Machine
end

section
/-! PROOFS. What an instruction sees of icc (10_state.md R28): other flags before it pass through the
operations of an instruction that reads none. -/

namespace Sys2Proof.Machine

/-! ## The operations under other flags -/

/-- An outcome with other flags put into its next state. -/
def outcomeWithIcc (f : Icc) : StepOutcome → StepOutcome
  | .next t => .next (t.setIcc f)
  | .fault r => .fault r
  | .refused r => .refused r

/-- The flags take no part in a register write. -/
theorem writeReg_setIcc (s : State) (f : Icc) (rd : RegNum) (v : Word) :
    (s.setIcc f).writeReg rd v = (s.writeReg rd v).setIcc f := by
  unfold State.writeReg
  split <;> rfl

theorem raise_setIcc (e : Fault) (s : State) (f : Icc) :
    raise e (s.setIcc f) = outcomeWithIcc f (raise e s) := rfl

theorem complete_setIcc (rd : RegNum) (v : Word) (s : State) (f : Icc) :
    complete rd v (s.setIcc f) = outcomeWithIcc f (complete rd v s) := by
  rw [complete, writeReg_setIcc]
  rfl

theorem jumpAndLink_setIcc (rd : RegNum) (a : Word) (s : State) (f : Icc) :
    jumpAndLink rd a (s.setIcc f) = outcomeWithIcc f (jumpAndLink rd a s) := by
  rw [jumpAndLink_eq, jumpAndLink_eq, setIcc_pc, writeReg_setIcc]
  split <;> rfl

/-- An instruction that writes all four flags leaves no trace of those before. -/
theorem completeCc_setIcc (rd : RegNum) (v : Word) (g : Icc) (s : State) (f : Icc) :
    completeCc rd v g (s.setIcc f) = completeCc rd v g s := by
  rw [completeCc, writeReg_setIcc]
  rfl

@[simp] theorem operand2_setIcc (s : State) (f : Icc) (o : Operand2) :
    (s.setIcc f).operand2 o = s.operand2 o := rfl

@[simp] theorem address_setIcc (s : State) (f : Icc) (rs1 : RegNum) (o : Operand2) :
    (s.setIcc f).address rs1 o = s.address rs1 o := rfl

/-! ## The instructions under other flags -/

/-- An instruction that is no branch and writes no icc does the same under other flags; ADDX and SUBX when
c is the same. -/
theorem exec_setIcc {i : Instr} {s : State} {f : Icc} (hread : iccRead i ≠ .allFlags)
    (hc : iccRead i = .carryOnly → f.c = s.icc.c) (hw : writesIcc i = false) :
    exec i (s.setIcc f) = outcomeWithIcc f (exec i s) := by
  cases i with
  | add rd rs1 o | and rd rs1 o | or rd rs1 o | xor rd rs1 o | sub rd rs1 o | andn rd rs1 o | orn rd rs1 o
  | xnor rd rs1 o | umul rd rs1 o | smul rd rs1 o | sll rd rs1 o | srl rd rs1 o | sra rd rs1 o =>
    exact complete_setIcc rd _ s f
  | sethi rd k => exact complete_setIcc rd _ s f
  | addx rd rs1 o =>
    change complete rd (s.readReg rs1 + s.operand2 o + carryWord f.c) (s.setIcc f) = _
    rw [hc rfl]
    exact complete_setIcc rd _ s f
  | subx rd rs1 o =>
    change complete rd (s.readReg rs1 - s.operand2 o - carryWord f.c) (s.setIcc f) = _
    rw [hc rfl]
    exact complete_setIcc rd _ s f
  | udiv rd rs1 o =>
    rw [exec_udiv_eq, exec_udiv_eq, operand2_setIcc]
    split_ifs
    · exact raise_setIcc _ s f
    · exact complete_setIcc rd _ s f
  | sdiv rd rs1 o =>
    rw [exec_sdiv_eq, exec_sdiv_eq, operand2_setIcc, readReg_setIcc]
    split_ifs
    · exact raise_setIcc _ s f
    · exact complete_setIcc rd _ s.countDraw f
    · exact complete_setIcc rd _ s f
  | ld rd rs1 o =>
    rw [exec_ld_eq, exec_ld_eq, address_setIcc, inRegions_setIcc]
    split_ifs
    · exact complete_setIcc rd _ s f
    · exact raise_setIcc _ s f
    · exact raise_setIcc _ s f
  | st rd rs1 o =>
    rw [exec_st_eq, exec_st_eq, address_setIcc, inRegions_setIcc]
    split_ifs
    · rfl
    · exact raise_setIcc _ s f
    · exact raise_setIcc _ s f
  | call d =>
    rw [exec_call_eq, exec_call_eq, writeReg_setIcc]
    rfl
  | retl => exact jumpAndLink_setIcc _ _ s f
  | jmpl rd rs1 o => exact jumpAndLink_setIcc rd _ s f
  | addcc | andcc | orcc | xorcc | subcc | andncc | orncc | xnorcc | addxcc | umulcc | smulcc | subxcc
  | udivcc | sdivcc => simp [writesIcc] at hw
  | bn | be | ble | bl | bleu | bcs | bneg | bvs | ba | bne | bg | bge | bgu | bcc | bpos | bvc =>
    exact absurd rfl hread

/-- A cc instruction answers the same under other flags, unless it raises a fault; ADDXcc and SUBXcc when
c is the same. -/
theorem exec_cc_setIcc {i : Instr} {s : State} {f : Icc}
    (hc : iccRead i = .carryOnly → f.c = s.icc.c) (hw : writesIcc i = true) :
    exec i (s.setIcc f) = exec i s ∨ ∃ e, exec i s = raise e s := by
  cases i with
  | addcc rd rs1 o | andcc rd rs1 o | orcc rd rs1 o | xorcc rd rs1 o | subcc rd rs1 o | andncc rd rs1 o
  | orncc rd rs1 o | xnorcc rd rs1 o | umulcc rd rs1 o | smulcc rd rs1 o =>
    exact .inl (completeCc_setIcc rd _ _ s f)
  | addxcc rd rs1 o =>
    left
    change completeCc rd (s.readReg rs1 + s.operand2 o + carryWord f.c)
      (iccAdd (s.readReg rs1) (s.operand2 o) (s.readReg rs1 + s.operand2 o + carryWord f.c)) (s.setIcc f) = _
    rw [hc rfl]
    exact completeCc_setIcc rd _ _ s f
  | subxcc rd rs1 o =>
    left
    change completeCc rd (s.readReg rs1 - s.operand2 o - carryWord f.c)
      (iccSub (s.readReg rs1) (s.operand2 o) (s.readReg rs1 - s.operand2 o - carryWord f.c)) (s.setIcc f) = _
    rw [hc rfl]
    exact completeCc_setIcc rd _ _ s f
  | udivcc rd rs1 o =>
    rw [exec_udivcc_eq, exec_udivcc_eq, operand2_setIcc]
    split_ifs
    · exact .inr ⟨_, rfl⟩
    · exact .inl (completeCc_setIcc rd _ _ s f)
  | sdivcc rd rs1 o =>
    rw [exec_sdivcc_eq, exec_sdivcc_eq, operand2_setIcc, readReg_setIcc]
    split_ifs
    · exact .inr ⟨_, rfl⟩
    · exact .inl (completeCc_setIcc rd _ _ s.countDraw f)
    · exact .inl (completeCc_setIcc rd _ _ s f)
  | _ => simp [writesIcc] at hw

/-- Settles O17: other flags pass through an instruction that writes none, and a cc instruction that
completes puts its own in their place. -/
theorem flagsNotReadDoNotShow : Obligations.FlagsNotReadDoNotShow := by
  unfold Obligations.FlagsNotReadDoNotShow
  intro i s t f hread hc _ h
  refine ⟨fun hw => ?_, fun hw hf => ?_⟩
  · rw [exec_setIcc hread hc hw, h]
    rfl
  · obtain hsame | ⟨e, he⟩ := exec_cc_setIcc hc hw
    · exact hsame.trans h
    · simp [raise_next (he.symm.trans h)] at hf

end Sys2Proof.Machine
end

section
/-! PROOFS. The state at the first fetch (10_state.md R35, R36; 70_reset_and_hazards.md R310): what the
host's image reads as once it is loaded, and the invariant it starts the run in. -/

namespace Sys2Proof.Machine

/-! ## Writing words one after another -/

/-- A memory after an image's words have been written, in the order of the image. -/
def writeWords (img : Image) (m : Memory) : Memory :=
  img.foldl (fun acc e => Memory.writeWord acc e.1.toNat e.2) m

/-- Loading an image writes the entries that fit. -/
theorem loadImage_eq (p : Config.Params) (img : Image) (m : Memory) :
    loadImage p img m = writeWords (img.filter (imageEntryFits p)) m := rfl

theorem writeWords_cons (e : Word × Word) (img : Image) (m : Memory) :
    writeWords (e :: img) m = writeWords img (m.writeWord e.1.toNat e.2) := rfl

/-- No entry of an image covers the byte at an address. -/
def Uncovered (img : Image) (a : Nat) : Prop := ∀ e ∈ img, a < e.1.toNat ∨ e.1.toNat + 3 < a

/-- A byte that no entry covers is as it was. -/
theorem byte?_writeWords_uncovered {img : Image} {a : Nat} (h : Uncovered img a) (m : Memory) :
    (writeWords img m).byte? a = m.byte? a := by
  induction img generalizing m with
  | nil => rfl
  | cons e img ih =>
    have he : a < e.1.toNat ∨ e.1.toNat + 3 < a := h e List.mem_cons_self
    rw [writeWords_cons, ih fun d hd => h d (List.mem_cons_of_mem _ hd), byte?_writeWord, if_neg (by omega)]

/-- The bytes of an aligned word are uncovered by aligned entries at other addresses. -/
theorem uncovered_of_not_mem {img : Image} {a : Word} {k : Nat} (ha : isAligned a = true)
    (haligned : ∀ e ∈ img, isAligned e.1 = true) (hmem : a ∉ img.map Prod.fst)
    (hk : a.toNat ≤ k ∧ k ≤ a.toNat + 3) : Uncovered img k := by
  intro e he
  have hne : a ≠ e.1 := fun h => hmem (h ▸ List.mem_map_of_mem he)
  have hdisjoint := aligned_disjoint ha (haligned e he) hne k
  omega

/-- Each byte of an entry reads as its byte of the word, when the addresses are aligned and distinct. -/
theorem byte?_writeWords {img : Image} (haligned : ∀ e ∈ img, isAligned e.1 = true)
    (hdistinct : (img.map Prod.fst).Nodup) {e : Word × Word} (he : e ∈ img) {k : Nat}
    (hk : e.1.toNat ≤ k ∧ k ≤ e.1.toNat + 3) (m : Memory) :
    (writeWords img m).byte? k = some (byteOfWord e.2 (k - e.1.toNat)) := by
  induction img generalizing m with
  | nil => simp at he
  | cons d img ih =>
    obtain ⟨hd, hrest⟩ := List.forall_mem_cons.1 haligned
    obtain ⟨hnot, hnodup⟩ := List.nodup_cons.1 hdistinct
    rw [writeWords_cons]
    obtain rfl | hmem := List.mem_cons.1 he
    · rw [byte?_writeWords_uncovered (uncovered_of_not_mem hd hrest hnot hk), byte?_writeWord, if_pos hk]
    · exact ih hrest hnodup hmem _

/-- An entry reads back as its word. -/
theorem wordAt_writeWords {img : Image} (haligned : ∀ e ∈ img, isAligned e.1 = true)
    (hdistinct : (img.map Prod.fst).Nodup) {e : Word × Word} (he : e ∈ img) (m : Memory) (g : Nat → Byte) :
    wordAt (fun a => ((writeWords img m).byte? a).getD (g a)) e.1.toNat = e.2 := by
  have hbyte {k : Nat} (hk : e.1.toNat ≤ k ∧ k ≤ e.1.toNat + 3) :=
    byte?_writeWords haligned hdistinct he hk m
  simp only [wordAt]
  rw [hbyte (by omega), hbyte (by omega), hbyte (by omega), hbyte (by omega)]
  simpa using wordOfBytes_byteOfWord e.2

/-! ## Loading an image (R310) -/

/-- The entries that are loaded are aligned and in the regions. -/
theorem fits_of_mem_filter {p : Config.Params} {img : Image} {e : Word × Word}
    (h : e ∈ img.filter (imageEntryFits p)) :
    isAligned e.1 = true ∧ holdsWordAt p.memRegions e.1.toNat = true := by
  simpa [imageEntryFits] using (List.mem_filter.1 h).2

/-- A loaded entry reads back as its word. -/
theorem wordAt_loadImage {p : Config.Params} {img : Image} (hdistinct : (img.map Prod.fst).Nodup)
    {e : Word × Word} (he : e ∈ img) (hfits : imageEntryFits p e = true) (g : Nat → Byte) :
    wordAt (fun a => ((loadImage p img []).byte? a).getD (g a)) e.1.toNat = e.2 := by
  have hsub : ((img.filter (imageEntryFits p)).map Prod.fst).Nodup :=
    hdistinct.sublist (List.filter_sublist.map _)
  rw [loadImage_eq]
  exact wordAt_writeWords (fun d hd => (fits_of_mem_filter hd).1) hsub (List.mem_filter.2 ⟨he, hfits⟩) [] g

/-- A byte that no entry covers is not listed. -/
theorem byte?_loadImage_uncovered {p : Config.Params} {img : Image} {a : Nat} (h : Uncovered img a) :
    (loadImage p img []).byte? a = none := by
  rw [loadImage_eq]
  exact byte?_writeWords_uncovered (fun e he => h e (List.mem_of_mem_filter he)) []

/-- Writing entries that fit keeps the form and the regions. -/
theorem within_writeWords {regions : List Config.Region} {img : Image}
    (h : ∀ e ∈ img, isAligned e.1 = true ∧ holdsWordAt regions e.1.toNat = true) {m : Memory}
    (hm : m.Within regions) : Memory.Within regions (writeWords img m) := by
  induction img generalizing m with
  | nil => exact hm
  | cons e img ih =>
    obtain ⟨⟨ha, hr⟩, hrest⟩ := List.forall_mem_cons.1 h
    exact ih hrest (within_writeWord e.2 ha hr hm)

/-- A loaded image has the canonical form and lies in the regions. -/
theorem within_loadImage (p : Config.Params) (img : Image) :
    Memory.Within p.memRegions (loadImage p img []) := by
  rw [loadImage_eq]
  exact within_writeWords (fun _ => fits_of_mem_filter) ⟨rfl, by simp⟩

/-! ## The booted state -/

section
variable (p : Config.Params) (regs : Vector Word 31) (icc : Icc) (text data : Image)

/-- Under unified both images go to the one memory. -/
theorem boot_memories_unified (h : p.memOrg = .unified) :
    (State.boot p regs icc text data).mem = loadImage p (text ++ data) [] ∧
      (State.boot p regs icc text data).progMem = [] := by
  simp [State.boot, h]

/-- Under split each image goes to its own memory (log 20). -/
theorem boot_memories_split (h : p.memOrg = .split) :
    (State.boot p regs icc text data).mem = loadImage p data [] ∧
      (State.boot p regs icc text data).progMem = loadImage p text [] := by
  simp [State.boot, h]

/-- Each memory of the booted state has the canonical form and lies in the regions. -/
theorem boot_within :
    Memory.Within p.memRegions (State.boot p regs icc text data).mem ∧
      Memory.Within p.memRegions (State.boot p regs icc text data).progMem := by
  cases h : p.memOrg with
  | unified =>
    obtain ⟨hmem, hprog⟩ := boot_memories_unified p regs icc text data h
    rw [hmem, hprog]
    exact ⟨within_loadImage p _, rfl, by simp⟩
  | split =>
    obtain ⟨hmem, hprog⟩ := boot_memories_split p regs icc text data h
    rw [hmem, hprog]
    exact ⟨within_loadImage p _, within_loadImage p _⟩

end

/-- Settles O26: the loaded memories meet the invariant, and pc is RESET_PC. -/
theorem bootMeetsTheInvariant : Obligations.BootMeetsTheInvariant := by
  unfold Obligations.BootMeetsTheInvariant
  intro p regs icc text data hpc
  rw [inv_iff]
  exact ⟨hpc, boot_within p regs icc text data⟩

/-- What LD reads of a data memory into which an image was loaded. -/
theorem dataByte_loaded {s : State} {p : Config.Params} {img : Image} (hmem : s.mem = loadImage p img []) :
    ((img.map Prod.fst).Nodup → ∀ e ∈ img, imageEntryFits p e = true → s.loadWord e.1 = e.2) ∧
      ∀ a, Uncovered img a → s.dataByte a = Config.unloadedByte a := by
  have hbyte : s.dataByte = fun a => ((loadImage p img []).byte? a).getD (Config.unloadedByte a) := by
    funext a
    rw [State.dataByte, hmem]
  refine ⟨fun hdistinct e he hfits => ?_, fun a ha => ?_⟩
  · rw [State.loadWord, hbyte]
    exact wordAt_loadImage hdistinct he hfits _
  · rw [hbyte]
    simp only [byte?_loadImage_uncovered ha, Option.getD_none]

/-- What the fetch reads of a program memory into which an image was loaded. -/
theorem progByte_loaded {s : State} {p : Config.Params} {img : Image}
    (hprog : s.progMem = loadImage p img []) :
    ((img.map Prod.fst).Nodup → ∀ e ∈ img, imageEntryFits p e = true →
        wordAt s.progByte e.1.toNat = e.2) ∧
      ∀ a, Uncovered img a → s.progByte a = Config.unloadedProgByte a := by
  have hbyte : s.progByte = fun a => ((loadImage p img []).byte? a).getD (Config.unloadedProgByte a) := by
    funext a
    rw [State.progByte, hprog]
  refine ⟨fun hdistinct e he hfits => ?_, fun a ha => ?_⟩
  · rw [hbyte]
    exact wordAt_loadImage hdistinct he hfits _
  · rw [hbyte]
    simp only [byte?_loadImage_uncovered ha, Option.getD_none]

/-- Settles O25: the fields of the booted state as given, and its memories as loaded. -/
theorem stateAtTheFirstFetch : Obligations.StateAtTheFirstFetch := by
  unfold Obligations.StateAtTheFirstFetch
  refine ⟨rfl, rfl, rfl, fun p regs icc text data => ?_⟩
  intro s distinct uncovered
  refine ⟨readReg_zero s, fun r hr => if_neg hr, rfl, rfl, rfl, rfl, fun horg => ?unified, fun horg => ?split⟩
  case unified =>
    obtain ⟨hmem, hprog⟩ := boot_memories_unified p regs icc text data horg
    obtain ⟨hload, hfree⟩ := dataByte_loaded hmem
    refine ⟨fun hdistinct e he hfits => ⟨hload hdistinct e he hfits, ?_⟩, hfree, fun a => ?_⟩
    · rw [fetchWord_unified (s := s) horg]
      exact hload hdistinct e he hfits
    · rw [State.progByte, hprog]
      rfl
  case split =>
    obtain ⟨hmem, hprog⟩ := boot_memories_split p regs icc text data horg
    obtain ⟨hload, hfree⟩ := dataByte_loaded hmem
    obtain ⟨hfetch, hfreeProg⟩ := progByte_loaded hprog
    refine ⟨fun hdistinct e he hfits => ?_, hload, hfreeProg, hfree⟩
    rw [fetchWord_split (s := s) horg]
    exact hfetch hdistinct e he hfits

end Sys2Proof.Machine
end
